-- ==== Sys2Proof/Word.lean ====
section
/-! DEFINITION. The words of RBAT: the bit-vector types of its registers, fields and frames (00_scope R5, R9). -/

namespace Sys2Proof

/-- One byte of the serial bus or of a data stream. -/
abbrev Byte := BitVec 8

/-- A 16-bit register, chip address, pointer or length (R5: `PTRW = ADDRW = 16`). -/
abbrev Word := BitVec 16

/-- A socket index: 3 bits, so that an index of 8 or more cannot be written (R104, D14). -/
abbrev Sock := BitVec 3

/-- The bank field `ctl[4:3]` of a control byte (R110). -/
abbrev Bank := BitVec 2

/-- One request word (R100). -/
abbrev ReqWord := BitVec 64

/-- The three header bytes of a bus frame as one number, the first byte sent at the top (R108, R113). -/
abbrev Header := BitVec 24

end Sys2Proof
end

