-- ==== Sys2Proof/Config.lean ====
section
/-! DEFINITION. What an implementation fixes: the constants of R5, the configuration record of R6 with its constraints
and its reference instance, the command names of R8, and the free value the chip's answers come from (R147, D26). -/

namespace Sys2Proof

/-- `SOCKETS` (R5). -/
abbrev Config.sockets : Nat := 8

/-- `SSIZE` (R5): the size of each socket's transmit buffer. -/
abbrev Config.ssize : Nat := 2048

/-- `RSIZE` (R5): the size of each socket's receive buffer. -/
abbrev Config.rsize : Nat := 2048

/-- `HDRLEN` (R5): 2 address bytes and 1 control byte. -/
abbrev Config.hdrlen : Nat := 3

/-- The byte the chip returns at the `n`-th unscripted read exchange: FREE VALUE, no body (R20, R147, R261 row 11, U3, U21).
Nothing can be proved of it, so a statement holds for whatever the chip answers (log 2). -/
opaque Config.draw : Nat → Byte

/-- `CMD_OPEN` of R8. PRESUMED (G4, log 21); no rule reads it. -/
def Config.cmdOpen : Byte := 0x01
/-- `CMD_CLOSE` of R8. PRESUMED (G4, log 21); no rule reads it. -/
def Config.cmdClose : Byte := 0x10
/-- `CMD_SEND` of R8. PRESUMED (G4, log 21); no rule reads it. -/
def Config.cmdSend : Byte := 0x20
/-- `CMD_RECV` of R8. PRESUMED (G4, log 21); no rule reads it. -/
def Config.cmdRecv : Byte := 0x40

/-- `BITORDER` (R140, D6): an open parameter that no rule reads. -/
inductive BitOrder where
  | msbFirst
  | lsbFirst
  deriving DecidableEq, Repr

/-- The configuration RBAT was built with (R6): a parameter, fixed while the block runs (R43). -/
structure Cfg where
  /-- `TX_BASE(s)`: the base chip address of socket s's transmit buffer. -/
  txBases : Vector Word 8
  /-- `RX_BASE(s)`: the base chip address of socket s's receive buffer. -/
  rxBases : Vector Word 8
  /-- `SREG_BASE(s)`: the base chip address of socket s's register block. -/
  sregBases : Vector Word 8
  /-- `OFF_CR`: the command register (8 bits). -/
  offCr : Word
  /-- `OFF_TX_FSR`: the TX free size (16 bits, at the offset and the next one). -/
  offTxFsr : Word
  /-- `OFF_TX_RD`: the TX read pointer. RBAT never touches it (R38). -/
  offTxRd : Word
  /-- `OFF_TX_WR`: the TX write pointer. -/
  offTxWr : Word
  /-- `OFF_RX_RSR`: the RX received size. -/
  offRxRsr : Word
  /-- `OFF_RX_RD`: the RX read pointer. -/
  offRxRd : Word
  /-- `OFF_RX_WR`: the RX write pointer. RBAT never touches it (R38). -/
  offRxWr : Word
  /-- `BANK_TX`: the bank code of a socket's transmit buffer (D16). -/
  bankTx : Bank
  /-- `BANK_RX`: the bank code of a socket's receive buffer (D16). -/
  bankRx : Bank
  /-- `DUMMY`: the byte shifted out for each data byte of a read (R116, D7). -/
  dummy : Byte
  /-- `BITORDER` (D6): no rule reads it. -/
  bitOrder : BitOrder
  /-- `SPIMODE` (D6): no rule reads it. -/
  spiMode : Fin 4
  deriving DecidableEq, Repr

/-- `cfg.TX_BASE(s)`. -/
def Cfg.txBase (c : Cfg) (s : Sock) : Word := c.txBases[s.toNat]'s.isLt

/-- `cfg.RX_BASE(s)`. -/
def Cfg.rxBase (c : Cfg) (s : Sock) : Word := c.rxBases[s.toNat]'s.isLt

/-- `cfg.SREG_BASE(s)`. -/
def Cfg.sregBase (c : Cfg) (s : Sock) : Word := c.sregBases[s.toNat]'s.isLt

/-- The seven register offsets with the number of bytes each register has (R6, R38). -/
def Cfg.regs (c : Cfg) : List (Word × Nat) :=
  [(c.offCr, 1), (c.offTxFsr, 2), (c.offTxRd, 2), (c.offTxWr, 2), (c.offRxRsr, 2), (c.offRxRd, 2), (c.offRxWr, 2)]

/-- Two registers share no byte. -/
def Cfg.apart (a b : Word × Nat) : Bool :=
  a.1.toNat + a.2 ≤ b.1.toNat || b.1.toNat + b.2 ≤ a.1.toNat

/-- The constraints a configuration must meet (R6). -/
abbrev Cfg.Ok (c : Cfg) : Prop :=
  (∀ s : Sock, (c.txBase s).toNat + Config.ssize ≤ 65536) ∧
  (∀ s : Sock, (c.rxBase s).toNat + Config.rsize ≤ 65536) ∧
  (∀ s : Sock, (c.sregBase s).toNat % 0x0800 = 0 ∧ ∀ r ∈ c.regs, (c.sregBase s).toNat + r.1.toNat + 1 ≤ 65535) ∧
  c.regs.Pairwise (fun a b => Cfg.apart a b = true) ∧
  (c.bankTx = 0b10 ∨ c.bankTx = 0b11) ∧ (c.bankRx = 0b10 ∨ c.bankRx = 0b11) ∧ c.bankTx ≠ c.bankRx

/-- REFCFG (R6), with the nominal `BITORDER` and `SPIMODE` of D6. The bases `s * 0x0800` are the spec's own choice (D2);
offsets, bank codes and `SREG_BASE` are PRESUMED from the family as the spec says (G2, G3, G5, G6; log 5, 20). -/
def Cfg.ref : Cfg where
  txBases := #v[0x0000, 0x0800, 0x1000, 0x1800, 0x2000, 0x2800, 0x3000, 0x3800]
  rxBases := #v[0x0000, 0x0800, 0x1000, 0x1800, 0x2000, 0x2800, 0x3000, 0x3800]
  sregBases := #v[0, 0, 0, 0, 0, 0, 0, 0]
  offCr := 0x0001
  offTxFsr := 0x0020
  offTxRd := 0x0022
  offTxWr := 0x0024
  offRxRsr := 0x0026
  offRxRd := 0x0028
  offRxWr := 0x002A
  bankTx := 0b10
  bankRx := 0b11
  dummy := 0x00
  bitOrder := .msbFirst
  spiMode := 0

end Sys2Proof
end

