-- ==== Sys2Proof/Syntax.lean ====
section
/-! DEFINITION. The instructions: one constructor for each row of spec/opcode_table.json (30_encoding R104, R113), the operand
fields of a request word (R22, R101) and what a decoder can answer (R106). -/

namespace Sys2Proof

/-- One operation of RBAT (17 request rows, R104) or one bus frame (6 header rows, R113). -/
inductive Instr where
  /-- INIT (R142). -/
  | init
  /-- WR1 ctl, addr, byte (R148). -/
  | wr1 (ctl : Byte) (addr : Word) (dat : Byte)
  /-- WRN ctl, addr, len (R149). -/
  | wrn (ctl : Byte) (addr len : Word)
  /-- RD1 ctl, addr (R150). -/
  | rd1 (ctl : Byte) (addr : Word)
  /-- RDN ctl, addr, len (R151). -/
  | rdn (ctl : Byte) (addr len : Word)
  /-- SNWR1 s, off, byte (R172). -/
  | snwr1 (sock : Sock) (off : Word) (dat : Byte)
  /-- SNRD1 s, off (R173). -/
  | snrd1 (sock : Sock) (off : Word)
  /-- SNWR2 s, off, value16 (R174). -/
  | snwr2 (sock : Sock) (off : Word) (dat : Word)
  /-- SNRD2 s, off (R175). -/
  | snrd2 (sock : Sock) (off : Word)
  /-- XLATE p, n, base (R197). -/
  | xlate (p n base : Word)
  /-- RDDATA s, src, len (R212). -/
  | rddata (sock : Sock) (src len : Word)
  /-- SEND s, len (R216). -/
  | send (sock : Sock) (len : Word)
  /-- SENDOFS s, offset, len (R221). -/
  | sendofs (sock : Sock) (offset len : Word)
  /-- RECV s, len; with `peek` it is RECV.P (R226). -/
  | recv (sock : Sock) (peek : Bool) (len : Word)
  /-- EXEC s, command (R242). -/
  | execCmd (sock : Sock) (cmd : Byte)
  /-- TXFREE s (R245). -/
  | txfree (sock : Sock)
  /-- RXSIZE s (R249). -/
  | rxsize (sock : Sock)
  /-- F_RD_GEN: frame, read of the general register bank (R113, R147). -/
  | fRdGen (a : Word)
  /-- F_WR_GEN: frame, write of the general register bank (R113, R146). -/
  | fWrGen (a : Word)
  /-- F_RD_SREG: frame, read of a socket's register bank (R113, R147). -/
  | fRdSreg (a : Word) (sock : Sock)
  /-- F_WR_SREG: frame, write of a socket's register bank (R113, R146). -/
  | fWrSreg (a : Word) (sock : Sock)
  /-- F_WR_TXB: frame, write of a socket's TX bank (R113, R146). -/
  | fWrTxb (a : Word) (sock : Sock)
  /-- F_RD_RXB: frame, read of a socket's RX bank (R113, R147). -/
  | fRdRxb (a : Word) (sock : Sock)
  deriving DecidableEq, Repr

/-- The operand fields of a request word, sampled once at acceptance (R22, R101). -/
structure Operands where
  op : Byte
  sel : Byte
  addr : Word
  len : Word
  dat : Word
  deriving DecidableEq, Repr

/-- Why a decoder gives no instruction. -/
inductive Reserved where
  /-- `OP` is no row's operation code (R106). -/
  | unknownOp
  /-- A must-be-zero bit of the row is set (R103, R106). -/
  | mustBeZero
  /-- A frame header is none of the six kinds of R113 (R118). -/
  | frameKind
  deriving DecidableEq, Repr

/-- What a decoder answers: it is total (R106). -/
inductive Decoded where
  | instr (i : Instr)
  | reserved (why : Reserved)
  deriving DecidableEq, Repr

end Sys2Proof
end

