-- ==== Sys2Proof/Machine/Operands.lean ====
section
/-! DEFINITION. Every operand form: control bytes, socket-register addresses, 16-bit values as two bytes, the ring translation,
chip locations, and the tests of the operands that a refusal names (R61, R110 to R117, R152, R171, R176, R192, R197, R211). -/

namespace Sys2Proof.Machine

/-! ## Control bytes and addresses -/

/-- `SnCtl(s, b, wr)` (R111): socket in [7:5], bank in [4:3], direction in [2], 00 in [1:0] (R110, R117, C1, C4). -/
def snCtl (s : Sock) (b : Bank) (wr : Bool) : Byte := s ++ b ++ BitVec.ofBool wr ++ 0#2

/-- `GenCtl(wr)` (R111): the general register bank. -/
def genCtl (wr : Bool) : Byte := snCtl 0 0b00 wr

/-- The bank code of a socket's register bank (R110). -/
def bankSreg : Bank := 0b01

/-- `rdctl(s)` (R171). -/
def rdCtl (s : Sock) : Byte := snCtl s bankSreg false

/-- `wrctl(s)` (R171). -/
def wrCtl (s : Sock) : Byte := snCtl s bankSreg true

/-- The direction bit `ctl[2]`: true for a write (R110, C1). -/
def ctlWrite (ctl : Byte) : Bool := ctl.getLsbD 2

/-- The bank field `ctl[4:3]` (R110). -/
def ctlBankOf (ctl : Byte) : Bank := ctl.extractLsb' 3 2

/-- The socket field `ctl[7:5]` (R110). -/
def ctlSockOf (ctl : Byte) : Sock := ctl.extractLsb' 5 3

/-- The width field `ctl[1:0]` (R110, R117). -/
def ctlWidthOf (ctl : Byte) : BitVec 2 := ctl.extractLsb' 0 2

/-- `ra(s, off)`, the chip address of a socket register (R171). The tests of R176 and the constraint of R6 keep the sum below
65536, so the 16-bit sum does not wrap. -/
def regAddr (c : Cfg) (s : Sock) (off : Word) : Word := c.sregBase s + off

/-- A chip location as one number: bank `ctl[7:3]`, then the 16-bit address (R60, R61). -/
def locOf (ctl : Byte) (addr : Nat) : Nat := (ctl.extractLsb' 3 5).toNat * 65536 + addr

/-- The three header bytes of a frame: address high byte first, then the control byte (R62, R108, R114). -/
def headerBytes (addr : Word) (ctl : Byte) : List Byte := [addr.extractLsb' 8 8, addr.extractLsb' 0 8, ctl]

/-- A 16-bit value as two data bytes, high byte first (R63, R115). -/
def bytesOfWord (v : Word) : List Byte := [v.extractLsb' 8 8, v.extractLsb' 0 8]

/-- Two data bytes read back as a 16-bit value, `(h << 8) | l` (R115). A 2-byte read always has two bytes. -/
def wordOfBytes : List Byte → Word
  | h :: l :: _ => h ++ l
  | _ => 0

/-- The first byte of a 1-byte read. -/
def byteOfBytes : List Byte → Byte
  | b :: _ => b
  | [] => 0

/-! ## The ring translation -/

/-- `Xlate(p, n, S, B)` over the integers: one or two pieces, each (address, length) (R192). -/
def xlate (p n S B : Nat) : List (Nat × Nat) :=
  let o := p % S
  if o + n > S then [(B + o, S - o), (B, n - (S - o))] else [(B + o, n)]

/-- The length of the second piece, 0 when the transfer did not wrap (R197, D30). -/
def secondLen : List (Nat × Nat) → Nat
  | _ :: p :: _ => p.2
  | _ => 0

/-- The first piece of a translation. -/
def firstPiece : List (Nat × Nat) → Nat × Nat
  | p :: _ => p
  | [] => (0, 0)

/-- A pointer advanced by a length, with 16-bit wraparound and never reduced modulo the buffer size (R217). -/
def advance (old len : Word) : Word := old + len

/-! ## What a refusal tests -/

/-- `CtlWidth` (R152): `CTL[1:0] != 00`. -/
def badCtlWidth (ctl : Byte) : Bool := ctlWidthOf ctl != 0

/-- `CtlDir` (R152): `CTL[2]` disagrees with the operation's direction. -/
def badCtlDir (wr : Bool) (ctl : Byte) : Bool := ctlWrite ctl != wr

/-- `CtlBank` (R152): the general bank with socket bits set. -/
def badCtlBank (ctl : Byte) : Bool := ctlBankOf ctl == 0 && ctlSockOf ctl != 0

/-- `LenZero` (R153, R211). -/
def lenIsZero (len : Word) : Bool := len == 0

/-- `LenRange` (R193, R197, R211): more than the buffer holds. -/
def lenOverBuffer (size : Nat) (len : Word) : Bool := decide (len.toNat > size)

/-- `BaseRange` (R197): the buffer would pass the top of the address space. -/
def baseTooHigh (base : Word) : Bool := decide (base.toNat + 2048 > 65536)

/-- `AddrRange` (R67, R152): a run of `n` bytes from `addr` would pass address 0xFFFF. -/
def runTooHigh (addr n : Nat) : Bool := decide (addr + n > 65536)

/-! ## Pseudo-operations -/

/-- PEEK s, len (R120). -/
def pseudoPeek (s : Sock) (len : Word) : Instr := .recv s true len
/-- COMMITTX s, value16 (R120). -/
def pseudoCommitTx (c : Cfg) (s : Sock) (v : Word) : Instr := .snwr2 s c.offTxWr v
/-- ADVRX s, value16 (R120). -/
def pseudoAdvRx (c : Cfg) (s : Sock) (v : Word) : Instr := .snwr2 s c.offRxRd v
/-- RDTXWR s (R120). -/
def pseudoRdTxWr (c : Cfg) (s : Sock) : Instr := .snrd2 s c.offTxWr
/-- RDRXRD s (R120). -/
def pseudoRdRxRd (c : Cfg) (s : Sock) : Instr := .snrd2 s c.offRxRd
/-- GWR1 addr, byte (R120). -/
def pseudoGwr1 (addr : Word) (b : Byte) : Instr := .wr1 (genCtl true) addr b
/-- GRD1 addr (R120). -/
def pseudoGrd1 (addr : Word) : Instr := .rd1 (genCtl false) addr

end Sys2Proof.Machine
end

