-- ==== Sys2Proof/WellFormed.lean ====
section
/-! DEFINITION. Well-formed instructions: those whose operands alone meet the preconditions of their rule (R152, R153, R197,
R211). Every field has its exact width, so every instruction has an encoding; a request that is not well-formed decodes and
is refused by its meaning. What depends on the state (NotInit, DinShort) or on the configuration (AddrRange of R176) is not
tested here. -/

namespace Sys2Proof

/-- A control byte the raw operations accept (R152). -/
def ctlAccepted (wr : Bool) (ctl : Byte) : Bool :=
  !Machine.badCtlWidth ctl && !Machine.badCtlDir wr ctl && !Machine.badCtlBank ctl

/-- A length of a ring transfer (R211). -/
def ringLenAccepted (size : Nat) (len : Word) : Bool :=
  !Machine.lenIsZero len && !Machine.lenOverBuffer size len

/-- The operand-only preconditions of each instruction. -/
def Instr.wellFormed : Instr → Bool
  | .init => true
  | .wr1 ctl _ _ => ctlAccepted true ctl
  | .wrn ctl addr len => ctlAccepted true ctl && !Machine.lenIsZero len && !Machine.runTooHigh addr.toNat len.toNat
  | .rd1 ctl _ => ctlAccepted false ctl
  | .rdn ctl addr len => ctlAccepted false ctl && !Machine.lenIsZero len && !Machine.runTooHigh addr.toNat len.toNat
  | .snwr1 _ _ _ => true
  | .snrd1 _ _ => true
  | .snwr2 _ _ _ => true
  | .snrd2 _ _ => true
  | .xlate _ n base => !Machine.lenOverBuffer 2048 n && !Machine.baseTooHigh base
  | .rddata _ _ len => ringLenAccepted Config.rsize len
  | .send _ len => ringLenAccepted Config.ssize len
  | .sendofs _ _ len => ringLenAccepted Config.ssize len
  | .recv _ _ len => ringLenAccepted Config.rsize len
  | .execCmd _ _ => true
  | .txfree _ => true
  | .rxsize _ => true
  | .fRdGen _ => true
  | .fWrGen _ => true
  | .fRdSreg _ _ => true
  | .fWrSreg _ _ => true
  | .fWrTxb _ _ => true
  | .fRdRxb _ _ => true

/-- A request row of the table, as against a frame row. -/
def Instr.isRequest : Instr → Bool
  | .fRdGen _ | .fWrGen _ | .fRdSreg _ _ | .fWrSreg _ _ | .fWrTxb _ _ | .fRdRxb _ _ => false
  | .init | .wr1 _ _ _ | .wrn _ _ _ | .rd1 _ _ | .rdn _ _ _ | .snwr1 _ _ _ | .snrd1 _ _ | .snwr2 _ _ _ | .snrd2 _ _
  | .xlate _ _ _ | .rddata _ _ _ | .send _ _ | .sendofs _ _ _ | .recv _ _ _ | .execCmd _ _ | .txfree _ | .rxsize _ => true

end Sys2Proof
end

