-- ==== Sys2Proof/Decode.lean ====
section
/-! DEFINITION. The decoder of request words (R101, R103 to R107) and of frame headers (R110, R113, R114), total on any bits and
rejecting by name (R106), then the encoders written from the same tables, and the assembler text of R119. -/

namespace Sys2Proof

/-! ## Request words -/

/-- The fields of a request word (R101): OP [63:56], SEL [55:48], ADDR [47:32], LEN [31:16], DAT [15:0]. -/
def splitWord (w : ReqWord) : Operands where
  op := w.extractLsb' 56 8
  sel := w.extractLsb' 48 8
  addr := w.extractLsb' 32 16
  len := w.extractLsb' 16 16
  dat := w.extractLsb' 0 16

/-- The request word with these fields (R101). -/
def joinWord (o : Operands) : ReqWord := o.op ++ o.sel ++ o.addr ++ o.len ++ o.dat

/-- `SOCK = word[55:53]` of format S (R101). -/
def selSock (sel : Byte) : Sock := sel.extractLsb' 5 3

/-- `PEEK = word[52]` of format S (R28, R101). -/
def selPeek (sel : Byte) : Bool := sel.getLsbD 4

/-- The selector byte of format S: `{SOCK[2:0], PEEK, 0000}` (R22, R101). -/
def selOf (s : Sock) (peek : Bool) : Byte := s ++ BitVec.ofBool peek ++ 0#4

/-- `SEL[4:0]` must be zero: format S without a peek bit (R101). -/
def selPlain (sel : Byte) : Bool := sel.extractLsb' 0 5 == 0

/-- `SEL[3:0]` must be zero: RECV (R101, R104). -/
def selPeekable (sel : Byte) : Bool := sel.extractLsb' 0 4 == 0

/-- `DAT[7:0]` (R105). -/
def datByte (dat : Word) : Byte := dat.extractLsb' 0 8

/-- `DAT[15:8]` must be zero (R105). -/
def datHighZero (dat : Word) : Bool := dat.extractLsb' 8 8 == 0

/-- A byte in `DAT[7:0]` (R105). -/
def datOfByte (b : Byte) : Word := 0#8 ++ b

/-- The instruction if the row's must-be-zero fields are zero, else reserved (R103, R106). -/
def ifZero (zero : Bool) (i : Instr) : Decoded := if zero then .instr i else .reserved .mustBeZero

/-- The decoding procedure of R107 on the fields of a word: find the row by `OP`, test its must-be-zero fields, extract. -/
def decodeFields (o : Operands) : Decoded :=
  match o.op.toNat with
  | 0x01 => ifZero (o.sel == 0 && o.addr == 0 && o.len == 0 && o.dat == 0) .init
  | 0x02 => ifZero (o.len == 0 && datHighZero o.dat) (.wr1 o.sel o.addr (datByte o.dat))
  | 0x03 => ifZero (o.dat == 0) (.wrn o.sel o.addr o.len)
  | 0x04 => ifZero (o.len == 0 && o.dat == 0) (.rd1 o.sel o.addr)
  | 0x05 => ifZero (o.dat == 0) (.rdn o.sel o.addr o.len)
  | 0x06 => ifZero (selPlain o.sel && o.len == 0 && datHighZero o.dat) (.snwr1 (selSock o.sel) o.addr (datByte o.dat))
  | 0x07 => ifZero (selPlain o.sel && o.len == 0 && o.dat == 0) (.snrd1 (selSock o.sel) o.addr)
  | 0x08 => ifZero (selPlain o.sel && o.len == 0) (.snwr2 (selSock o.sel) o.addr o.dat)
  | 0x09 => ifZero (selPlain o.sel && o.len == 0 && o.dat == 0) (.snrd2 (selSock o.sel) o.addr)
  | 0x0A => ifZero (o.sel == 0) (.xlate o.addr o.len o.dat)
  | 0x0B => ifZero (selPlain o.sel && o.dat == 0) (.rddata (selSock o.sel) o.addr o.len)
  | 0x0C => ifZero (selPlain o.sel && o.addr == 0 && o.dat == 0) (.send (selSock o.sel) o.len)
  | 0x0D => ifZero (selPlain o.sel && o.dat == 0) (.sendofs (selSock o.sel) o.addr o.len)
  | 0x0E => ifZero (selPeekable o.sel && o.addr == 0 && o.dat == 0) (.recv (selSock o.sel) (selPeek o.sel) o.len)
  | 0x0F => ifZero (selPlain o.sel && o.addr == 0 && o.len == 0 && datHighZero o.dat) (.execCmd (selSock o.sel) (datByte o.dat))
  | 0x10 => ifZero (selPlain o.sel && o.addr == 0 && o.len == 0 && o.dat == 0) (.txfree (selSock o.sel))
  | 0x11 => ifZero (selPlain o.sel && o.addr == 0 && o.len == 0 && o.dat == 0) (.rxsize (selSock o.sel))
  | _ => .reserved .unknownOp

/-- The decoder of a request word: total, an instruction or a named rejection (R106, R107). -/
def decodeReq (w : ReqWord) : Decoded := decodeFields (splitWord w)

/-! ## Frame headers -/

/-- The header of a frame as one 24-bit number, address in [23:8], control byte in [7:0] (R113). -/
def joinHeader (addr : Word) (ctl : Byte) : Header := addr ++ ctl

/-- The frame an address and a control byte name (R110, R113): six kinds, anything else is reserved (R118). -/
def decodeFrameCtl (c : Cfg) (a : Word) (ctl : Byte) : Decoded :=
  let sock := Machine.ctlSockOf ctl
  let bank := Machine.ctlBankOf ctl
  let wr := Machine.ctlWrite ctl
  if Machine.badCtlWidth ctl || Machine.badCtlBank ctl then .reserved .frameKind
  else if bank == 0b00 then .instr (if wr then .fWrGen a else .fRdGen a)
  else if bank == Machine.bankSreg then .instr (if wr then .fWrSreg a sock else .fRdSreg a sock)
  else if bank == c.bankTx && wr then .instr (.fWrTxb a sock)
  else if bank == c.bankRx && !wr then .instr (.fRdRxb a sock)
  else .reserved .frameKind

/-- The decoder of a frame header (R113). -/
def decodeFrame (c : Cfg) (h : Header) : Decoded := decodeFrameCtl c (h.extractLsb' 8 16) (h.extractLsb' 0 8)

/-- The decoder of the three header bytes as they cross the bus (R108). -/
def decodeFrameBytes (c : Cfg) (b0 b1 ctl : Byte) : Decoded := decodeFrameCtl c (b0 ++ b1) ctl

/-! ## The decoder as the table numbers its bits -/

/-- What a decoder's answer holds. -/
def Decoded.toOption : Decoded → Option Instr
  | .instr i => some i
  | .reserved _ => none

/-- The instruction whose bits, numbered as spec/opcode_table.json numbers them, are `w`: a request word is one 64-bit word
(R100); a frame header is one 24-bit word with the first byte sent at the top (R113), under REFCFG's bank codes as the table has
them. A number that has more bits than `nbits` is none. -/
def decodeTableWord (nbits w : Nat) : Option Instr :=
  if w ≥ 2 ^ nbits then none
  else if nbits = 64 then (decodeReq (BitVec.ofNat 64 w)).toOption
  else if nbits = 24 then (decodeFrame Cfg.ref (BitVec.ofNat 24 w)).toOption
  else none

/-! ## Encoders -/

/-- The fields of an operation's request word (R101, R104, R105). A frame has none: all zero, which no request is. -/
def fieldsOf : Instr → Operands
  | .init => ⟨0x01, 0, 0, 0, 0⟩
  | .wr1 ctl addr dat => ⟨0x02, ctl, addr, 0, datOfByte dat⟩
  | .wrn ctl addr len => ⟨0x03, ctl, addr, len, 0⟩
  | .rd1 ctl addr => ⟨0x04, ctl, addr, 0, 0⟩
  | .rdn ctl addr len => ⟨0x05, ctl, addr, len, 0⟩
  | .snwr1 s off dat => ⟨0x06, selOf s false, off, 0, datOfByte dat⟩
  | .snrd1 s off => ⟨0x07, selOf s false, off, 0, 0⟩
  | .snwr2 s off dat => ⟨0x08, selOf s false, off, 0, dat⟩
  | .snrd2 s off => ⟨0x09, selOf s false, off, 0, 0⟩
  | .xlate p n base => ⟨0x0A, 0, p, n, base⟩
  | .rddata s src len => ⟨0x0B, selOf s false, src, len, 0⟩
  | .send s len => ⟨0x0C, selOf s false, 0, len, 0⟩
  | .sendofs s ofs len => ⟨0x0D, selOf s false, ofs, len, 0⟩
  | .recv s peek len => ⟨0x0E, selOf s peek, 0, len, 0⟩
  | .execCmd s cmd => ⟨0x0F, selOf s false, 0, 0, datOfByte cmd⟩
  | .txfree s => ⟨0x10, selOf s false, 0, 0, 0⟩
  | .rxsize s => ⟨0x11, selOf s false, 0, 0, 0⟩
  | .fRdGen _ | .fWrGen _ | .fRdSreg _ _ | .fWrSreg _ _ | .fWrTxb _ _ | .fRdRxb _ _ => ⟨0, 0, 0, 0, 0⟩

/-- The request word of an operation (R104). -/
def encodeReq (i : Instr) : ReqWord := joinWord (fieldsOf i)

/-- Address and control byte of a frame (R111, R113). A request has none. -/
def frameParts (c : Cfg) : Instr → Option (Word × Byte)
  | .fRdGen a => some (a, Machine.genCtl false)
  | .fWrGen a => some (a, Machine.genCtl true)
  | .fRdSreg a s => some (a, Machine.rdCtl s)
  | .fWrSreg a s => some (a, Machine.wrCtl s)
  | .fWrTxb a s => some (a, Machine.snCtl s c.bankTx true)
  | .fRdRxb a s => some (a, Machine.snCtl s c.bankRx false)
  | .init | .wr1 _ _ _ | .wrn _ _ _ | .rd1 _ _ | .rdn _ _ _ | .snwr1 _ _ _ | .snrd1 _ _ | .snwr2 _ _ _ | .snrd2 _ _
  | .xlate _ _ _ | .rddata _ _ _ | .send _ _ | .sendofs _ _ _ | .recv _ _ _ | .execCmd _ _ | .txfree _ | .rxsize _ => none

/-- The header of a frame (R113). -/
def encodeFrame (c : Cfg) (i : Instr) : Option Header := (frameParts c i).map fun p => joinHeader p.1 p.2

/-- The words of an instruction as the table numbers them: how many bits, and the bits. -/
def encode (i : Instr) : Nat × Nat :=
  match encodeFrame Cfg.ref i with
  | some h => (24, h.toNat)
  | none => (64, (encodeReq i).toNat)

/-! ## Assembler text -/

/-- A number in the assembler text. -/
def asmNum {w : Nat} (v : BitVec w) : String := toString v.toNat

/-- A mnemonic and its operands, separated by commas (R119). -/
def asmLine (m : String) (args : List String) : String :=
  match args with
  | [] => m
  | _ => m ++ " " ++ ", ".intercalate args

/-- The text of an operation (R119); numbers are decimal. A frame is not an operation and is written by its kind (R113). -/
def Instr.asm : Instr → String
  | .init => asmLine "INIT" []
  | .wr1 ctl addr dat => asmLine "WR1" [asmNum ctl, asmNum addr, asmNum dat]
  | .wrn ctl addr len => asmLine "WRN" [asmNum ctl, asmNum addr, asmNum len]
  | .rd1 ctl addr => asmLine "RD1" [asmNum ctl, asmNum addr]
  | .rdn ctl addr len => asmLine "RDN" [asmNum ctl, asmNum addr, asmNum len]
  | .snwr1 s off dat => asmLine "SNWR1" [asmNum s, asmNum off, asmNum dat]
  | .snrd1 s off => asmLine "SNRD1" [asmNum s, asmNum off]
  | .snwr2 s off dat => asmLine "SNWR2" [asmNum s, asmNum off, asmNum dat]
  | .snrd2 s off => asmLine "SNRD2" [asmNum s, asmNum off]
  | .xlate p n base => asmLine "XLATE" [asmNum p, asmNum n, asmNum base]
  | .rddata s src len => asmLine "RDDATA" [asmNum s, asmNum src, asmNum len]
  | .send s len => asmLine "SEND" [asmNum s, asmNum len]
  | .sendofs s ofs len => asmLine "SENDOFS" [asmNum s, asmNum ofs, asmNum len]
  | .recv s peek len => asmLine (if peek then "RECV.P" else "RECV") [asmNum s, asmNum len]
  | .execCmd s cmd => asmLine "EXEC" [asmNum s, asmNum cmd]
  | .txfree s => asmLine "TXFREE" [asmNum s]
  | .rxsize s => asmLine "RXSIZE" [asmNum s]
  | .fRdGen a => asmLine "F_RD_GEN" [asmNum a]
  | .fWrGen a => asmLine "F_WR_GEN" [asmNum a]
  | .fRdSreg a s => asmLine "F_RD_SREG" [asmNum a, asmNum s]
  | .fWrSreg a s => asmLine "F_WR_SREG" [asmNum a, asmNum s]
  | .fWrTxb a s => asmLine "F_WR_TXB" [asmNum a, asmNum s]
  | .fRdRxb a s => asmLine "F_RD_RXB" [asmNum a, asmNum s]

end Sys2Proof
end

