-- ==== Sys2Proof/Machine/State.lean ====
section
/-! DEFINITION. The state of RBAT (10_state R21 to R44) as plain data, what a step can stop on (R263), and the state after reset
(R44, R290). Fields marked MODEL are the model's own, not the spec's. -/

namespace Sys2Proof.Machine

/-- Why the machine stops with a fault. RBAT itself raises no exception (R260). -/
inductive Fault where
  /-- A bus transaction was about to begin with `CSN = 0`, which BusWrite and BusRead require to be 1 (R146, R147). Raised by
  every meaning that uses the bus and by the polls. No state a run reaches meets it (R145). Safe: the machine stops. -/
  | busHeld
  deriving DecidableEq, Repr

/-- Why a request has no meaning: the closed set of R263, then the model's own. Every one of them is safe: the machine stops and
nothing it would have done can be relied on. -/
inductive Refusal where
  /-- The instruction has no meaning in the model yet. Raised by `exec` only. Safe. -/
  | notModelled (mnemonic : String)
  /-- The request word matches no row (R106, U12). Raised by the step when it decodes REQ. Safe. -/
  | reserved
  /-- `CS_OE = 0`: INIT has not run (R152, R176, R211, R241, R292, U14). Raised by every operation that uses the bus. Safe. -/
  | notInit
  /-- `CTL[1:0] != 00` (R152, U13). Raised by WR1, WRN, RD1, RDN. Safe. -/
  | ctlWidth
  /-- `CTL[2]` disagrees with the direction (R152, U13). Raised by WR1, WRN, RD1, RDN. Safe. -/
  | ctlDir
  /-- General bank with socket bits set (R152, U13). Raised by WR1, WRN, RD1, RDN. Safe. -/
  | ctlBank
  /-- A length of zero: a frame has at least one data byte (R153, R211). Raised by WRN, RDN, the transfers and the frames. Safe. -/
  | lenZero
  /-- A length above the buffer size (R193, R197, R211, U2). Raised by XLATE and the transfers. Safe. -/
  | lenRange
  /-- XLATE with a buffer past the top of the address space (R197). Safe. -/
  | baseRange
  /-- A run past chip address 0xFFFF (R67, R152, R176, U15). Raised by WRN, RDN, the accessors and the frames. Safe. -/
  | addrRange
  /-- `DIN` holds fewer than `LEN` bytes (R32, R152, R211, U16). Raised by WRN, SEND, SENDOFS. Safe. -/
  | dinShort
  /-- MODEL. A due frame's header is none of the six kinds of R113: RBAT never produces it (R118). Raised by the step. Safe. -/
  | frameKind
  /-- MODEL. The host asserts reset while an operation runs: outside the model (R291, U20, log 10). Raised by the host's turn. Safe. -/
  | resetBusy
  deriving DecidableEq, Repr

/-- The chip space as RBAT has written it: (location, byte) in strictly rising order of location (R37, R61, R146, log 6). -/
abbrev Memory := List Host.Cell

/-- One bus transaction as TRACE records it (R34). -/
inductive Txn where
  /-- `W(addr, ctl, d)`: BusWrite (R146). -/
  | w (addr : Word) (ctl : Byte) (d : List Byte)
  /-- `R(addr, ctl, r)`: BusRead, with the bytes read (R147). -/
  | r (addr : Word) (ctl : Byte) (d : List Byte)
  deriving DecidableEq, Repr

/-- What RBAT does on the wires, at byte level (R140, R143, D5). -/
inductive Wire where
  /-- Chip-select falls. -/
  | fall
  /-- One exchange: the byte RBAT shifts out (R116). -/
  | out (b : Byte)
  /-- Chip-select rises. -/
  | rise
  deriving DecidableEq, Repr

/-- The sequencer position `SEQ` between two steps (R26, R35). Operations that always end are one step (R252, D3, log 1), so only
the positions inside the loops of R242 and R246 stay visible, and a single transaction that is due (log 8). -/
inductive Seq where
  /-- IDLE: `BUSY = 0`. -/
  | idle
  /-- EXEC, at its POLL state (R244). -/
  | execPoll
  /-- TXFREE, at the next read of its compare loop (R246). -/
  | txfreeRead
  /-- RXSIZE, at the next read of its compare loop (R246). -/
  | rxsizeRead
  /-- One transaction: its header, the bytes of its data phase when it is a write, and how many bytes when it is a read (R108, R109). -/
  | xfer (h : Header) (d : List Byte) (n : Nat)
  deriving DecidableEq, Repr

/-- The translation registers, written together (R21, R24). -/
structure Segs where
  /-- `SEG1A`: physical address of the first piece. -/
  seg1a : Word
  /-- `SEG1L`: length of the first piece. -/
  seg1l : Word
  /-- `SEG2A`: physical address of the second piece, always the base. -/
  seg2a : Word
  /-- `SEG2L`: length of the second piece, 0 when there is none. -/
  seg2l : Word
  deriving DecidableEq, Repr

/-- MODEL. One act of the host (R20, R102, R307). -/
inductive HostAct where
  /-- Nothing this turn. -/
  | pause
  /-- Wait until `BUSY = 0` and nothing is pending in REQ (R271, R307). -/
  | await
  /-- Write `REQ` (R100, R102). -/
  | writeReq (w : ReqWord)
  /-- Put bytes at the end of `DIN` (R32). -/
  | putDin (d : List Byte)
  /-- Take bytes from the front of `DOUT` (R33). -/
  | takeDout (n : Nat)
  /-- Assert the reset input (R290). -/
  | reset
  deriving DecidableEq, Repr

/-- The state of the block, its records, and the plain data that stands for its environment. -/
structure State where
  /-- The configuration (R6, R43), a parameter that no step changes (log 5). -/
  cfg : Cfg
  /-- `REQ`: the request word the host has written and RBAT has not yet taken, if any (R21, R44). -/
  req : Option ReqWord
  /-- `RES` (R21, R23). -/
  res : Word
  /-- MODEL. `RES` has been written since reset (R44, U19, log 3). -/
  resWritten : Bool
  /-- `SEG1A`, `SEG1L`, `SEG2A`, `SEG2L` (R21, R24). -/
  seg : Segs
  /-- MODEL. The `SEG*` registers have been written since reset (R44, U19, log 3). -/
  segWritten : Bool
  /-- `CS_OE` (R29). -/
  csOe : Bool
  /-- `CSN`: true is high, idle (R29). -/
  csn : Bool
  /-- `DIN`, front first (R32). -/
  din : List Byte
  /-- `DOUT`, oldest first (R33). -/
  dout : List Byte
  /-- `SEQ` (R26, R35). `BUSY` is that it is not idle (R27). -/
  seq : Seq
  /-- The sampled operands (R22, R35). -/
  opnd : Operands
  /-- `PTR` (R35, R216, R226). -/
  ptr : Word
  /-- `VPREV` (R35, R246). -/
  vprev : Word
  /-- `k`, the index into the data of a split transfer (R35, R213). -/
  k : Nat
  /-- `TRACE`, oldest first (R34). -/
  trace : List Txn
  /-- MODEL. What went over the wires, oldest first (R108, R116, R143, log 18). -/
  wire : List Wire
  /-- MODEL. The last byte RBAT delivered to each chip location (R146, log 6). -/
  chipMem : Memory
  /-- MODEL. The bytes the chip will answer next, first to come first (R147, log 2). -/
  chip : List Byte
  /-- MODEL. How many free values have been drawn (R147, log 2). -/
  drawn : Nat
  /-- MODEL. The host's acts to come, first to come first (R20, log 7). -/
  inbox : List HostAct
  deriving DecidableEq, Repr

/-- The state after reset (R44, R290), with REFCFG (log 5). `RES`, `SEG*` and the dead hidden registers have no value in the
spec; the zeros here are the model's (log 3, 4). -/
def State.reset : State where
  cfg := Cfg.ref
  req := none
  res := 0
  resWritten := false
  seg := ⟨0, 0, 0, 0⟩
  segWritten := false
  csOe := false
  csn := true
  din := []
  dout := []
  seq := .idle
  opnd := ⟨0, 0, 0, 0, 0⟩
  ptr := 0
  vprev := 0
  k := 0
  trace := []
  wire := []
  chipMem := []
  chip := []
  drawn := 0
  inbox := []

/-- What a meaning answers. -/
abbrev Result := Host.Outcome State Fault Refusal

end Sys2Proof.Machine
end

