-- ==== Sys2Proof/Machine/Flags.lean ====
section
/-! DEFINITION. RBAT has no condition codes and no operation sets a flag as a side effect (R28). Its flags are the three bits of
STATUS (R27, R29, R30); this file computes them, and what a host reads (R21). -/

namespace Sys2Proof.Machine

/-- `BUSY`: an operation is in progress (R27). Held once, in `SEQ`. -/
def State.busy (s : State) : Bool := s.seq != .idle

/-- `STATUS = {BUSY, CS_OE, CSN}` (R30). -/
def State.status (s : State) : BitVec 3 := BitVec.ofBool s.busy ++ BitVec.ofBool s.csOe ++ BitVec.ofBool s.csn

/-- The host-facing registers (R21). -/
inductive HostReg where
  | req
  | res
  | seg1a
  | seg1l
  | seg2a
  | seg2l
  | status
  deriving DecidableEq, Repr

/-- What the host reads from a register (R21): `REQ` is write only; `RES` and `SEG*` have no value to return before an operation
has written them (R44, U19, log 3). -/
def State.hostRead (s : State) : HostReg → Option Word
  | .req => none
  | .res => if s.resWritten then some s.res else none
  | .seg1a => if s.segWritten then some s.seg.seg1a else none
  | .seg1l => if s.segWritten then some s.seg.seg1l else none
  | .seg2a => if s.segWritten then some s.seg.seg2a else none
  | .seg2l => if s.segWritten then some s.seg.seg2l else none
  | .status => some (s.status.zeroExtend 16)

end Sys2Proof.Machine
end

