-- ==== Sys2Proof/Machine/Ops.lean ====
section
/-! DEFINITION. The named operations over the state: chip memory, the wires, the draws, BusWrite and BusRead (R146, R147), the
register accesses and ring procedures built on them (R177, R213), the streams (R32, R33), acceptance and refusal (R102, R263),
the host's turn, and reset (R290).

TAKING AN EXCEPTION. RBAT raises no exception, has no trap entry and no trap return (R260, R273, R274): there is no such operation
to share. What stands in its place is the refusal, and it is written once, in `guarded`. -/

namespace Sys2Proof.Machine

/-! ## The chip space as RBAT has written it -/

/-- Write one cell, keeping the locations strictly rising. -/
def Memory.write (a : Nat) (b : Byte) : Memory → Memory
  | [] => [(a, b)]
  | (x, v) :: rest =>
    if a < x then (a, b) :: (x, v) :: rest
    else if a = x then (a, b) :: rest
    else (x, v) :: Memory.write a b rest

/-- Read one cell: none where RBAT has delivered nothing, which is what an unlisted location reads as (log 6). -/
def Memory.read (a : Nat) : Memory → Option Byte
  | [] => none
  | (x, v) :: rest => if x = a then some v else Memory.read a rest

/-- Write a run at rising locations (R66). -/
def Memory.writeRun (a : Nat) : List Byte → Memory → Memory
  | [], m => m
  | b :: bs, m => Memory.writeRun (a + 1) bs (Memory.write a b m)

/-- The canonical form: locations strictly rising. -/
def Memory.wf : Memory → Bool
  | [] => true
  | [_] => true
  | (x, _) :: (y, v) :: rest => decide (x < y) && Memory.wf ((y, v) :: rest)

/-! ## The wires -/

/-- Chip-select falls (R143). -/
def State.csFall (s : State) : State := { s with csn := false, wire := s.wire ++ [.fall] }

/-- Chip-select rises (R143). -/
def State.csRise (s : State) : State := { s with csn := true, wire := s.wire ++ [.rise] }

/-- One exchange whose returned byte is ignored and appears nowhere (R116, D7). -/
def State.shiftOut (b : Byte) (s : State) : State := { s with wire := s.wire ++ [.out b] }

/-- Exchanges in order, the returned bytes ignored (R146). -/
def State.shiftAll : List Byte → State → State
  | [], s => s
  | b :: bs, s => State.shiftAll bs (s.shiftOut b)

/-- The byte the chip returns now: a draw (R147, log 2). -/
def State.draw (s : State) : Byte × State :=
  match s.chip with
  | b :: rest => (b, { s with chip := rest })
  | [] => (Config.draw s.drawn, { s with drawn := s.drawn + 1 })

/-- `n` exchanges of a read's data phase: `DUMMY` out, a draw in (R116, R147). -/
def State.shiftIn : Nat → State → List Byte × State
  | 0, s => ([], s)
  | n + 1, s =>
    let p := (s.shiftOut s.cfg.dummy).draw
    let q := State.shiftIn n p.2
    (p.1 :: q.1, q.2)

/-- The next bytes an environment answers: the script first, then free values. -/
def envBytes : Nat → List Byte → Nat → List Byte
  | 0, _, _ => []
  | n + 1, b :: rest, k => b :: envBytes n rest k
  | n + 1, [], k => Config.draw k :: envBytes n [] (k + 1)

/-- The `n` bytes the chip will return at the next `n` read exchanges. -/
def State.nextBytes (s : State) (n : Nat) : List Byte := envBytes n s.chip s.drawn

/-! ## BusWrite and BusRead -/

/-- Append a transaction to TRACE (R34). -/
def State.log (t : Txn) (s : State) : State := { s with trace := s.trace ++ [t] }

/-- The chip locations `(ctl[7:3], addr + i)` receive `d[i]` (R146). -/
def State.deliver (addr : Word) (ctl : Byte) (d : List Byte) (s : State) : State :=
  { s with chipMem := Memory.writeRun (locOf ctl addr.toNat) d s.chipMem }

/-- `BusWrite(addr, ctl, d)` (R146). Its callers have tested `CS_OE = 1`, `CSN = 1`, `len(d) >= 1`, `addr + n <= 65536`. -/
def busWrite (addr : Word) (ctl : Byte) (d : List Byte) (s : State) : State :=
  (((s.csFall.shiftAll (headerBytes addr ctl)).shiftAll d).deliver addr ctl d).csRise.log (.w addr ctl d)

/-- `BusRead(addr, ctl, n)` (R147): the bytes read, and the state after. -/
def busRead (addr : Word) (ctl : Byte) (n : Nat) (s : State) : List Byte × State :=
  let p := (s.csFall.shiftAll (headerBytes addr ctl)).shiftIn n
  (p.1, p.2.csRise.log (.r addr ctl p.1))

/-! ## The four register accesses of R177 -/

/-- `SnWr1(s, off, b)`. -/
def snWr1 (sock : Sock) (off : Word) (b : Byte) (s : State) : State :=
  busWrite (regAddr s.cfg sock off) (wrCtl sock) [b] s

/-- `SnRd1(s, off)`. -/
def snRd1 (sock : Sock) (off : Word) (s : State) : Byte × State :=
  let p := busRead (regAddr s.cfg sock off) (rdCtl sock) 1 s
  (byteOfBytes p.1, p.2)

/-- `SnWr2(s, off, v)`: one transaction, high byte first (R63, D11). -/
def snWr2 (sock : Sock) (off v : Word) (s : State) : State :=
  busWrite (regAddr s.cfg sock off) (wrCtl sock) (bytesOfWord v) s

/-- `SnRd2(s, off)`: one transaction, unguarded (R175, R218). -/
def snRd2 (sock : Sock) (off : Word) (s : State) : Word × State :=
  let p := busRead (regAddr s.cfg sock off) (rdCtl sock) 2 s
  (wordOfBytes p.1, p.2)

/-! ## Registers and streams -/

/-- Write `RES` (R23). -/
def State.setRes (v : Word) (s : State) : State := { s with res := v, resWritten := true }

/-- Write the four `SEG*` registers with a translation at base `B` (R197, R213). -/
def State.setSegs (segs : List (Nat × Nat)) (B : Nat) (s : State) : State :=
  { s with
    seg := ⟨BitVec.ofNat 16 (firstPiece segs).1, BitVec.ofNat 16 (firstPiece segs).2, BitVec.ofNat 16 B,
      BitVec.ofNat 16 (secondLen segs)⟩
    segWritten := true }

/-- `PTR <- v` (R216, R226). -/
def State.setPtr (v : Word) (s : State) : State := { s with ptr := v }

/-- `VPREV <- v` (R246). -/
def State.setVprev (v : Word) (s : State) : State := { s with vprev := v }

/-- `k <- n` (R213). -/
def State.setK (n : Nat) (s : State) : State := { s with k := n }

/-- `SEQ <- q` (R26). -/
def State.setSeq (q : Seq) (s : State) : State := { s with seq := q }

/-- `DIN.take(n)` (R32): what is left. The bytes taken are `s.din.take n`. -/
def State.dropDin (n : Nat) (s : State) : State := { s with din := s.din.drop n }

/-- `DOUT.put(d)` (R33). -/
def State.putDout (d : List Byte) (s : State) : State := { s with dout := s.dout ++ d }

/-! ## The ring procedures -/

/-- One read transaction for each piece, in order; the bytes joined (R213). -/
def readPieces (ctl : Byte) : List (Nat × Nat) → State → List Byte × State
  | [], s => ([], s)
  | p :: ps, s =>
    let r := busRead (BitVec.ofNat 16 p.1) ctl p.2 s
    let q := readPieces ctl ps r.2
    (r.1 ++ q.1, q.2)

/-- One write transaction for each piece, in order, each with its part `d[k .. k+l-1]` of the data (R213). -/
def writePieces (ctl : Byte) (d : List Byte) : List (Nat × Nat) → State → State
  | [], s => s
  | p :: ps, s =>
    writePieces ctl d ps ((busWrite (BitVec.ofNat 16 p.1) ctl ((d.drop s.k).take p.2) s).setK (s.k + p.2))

/-- `RingRead(s, p, n)` (R213). -/
def ringRead (sock : Sock) (p : Word) (n : Nat) (s : State) : List Byte × State :=
  let B := (s.cfg.rxBase sock).toNat
  let segs := xlate p.toNat n Config.rsize B
  readPieces (snCtl sock s.cfg.bankRx false) segs (s.setSegs segs B)

/-- `RingWrite(s, p, d)` (R213). -/
def ringWrite (sock : Sock) (p : Word) (d : List Byte) (s : State) : State :=
  let B := (s.cfg.txBase sock).toNat
  let segs := xlate p.toNat d.length Config.ssize B
  writePieces (snCtl sock s.cfg.bankTx true) d segs ((s.setSegs segs B).setK 0)

/-! ## Acceptance and refusal -/

/-- The first reason whose test is true (R102, R264). -/
def firstRefusal : List (Bool × Refusal) → Option Refusal
  | [] => none
  | (bad, r) :: rest => if bad then some r else firstRefusal rest

/-- Refuse with the first reason that applies, changing nothing (R263); else take the effect. -/
def guarded (checks : List (Bool × Refusal)) (s : State) (effect : State → State) : Result :=
  match firstRefusal checks with
  | some r => .refused r
  | none => .next (effect s)

/-- The same for an effect that begins a transaction: it needs `CS_OE = 1` (R146, R147, R152; the first reason after Reserved in
R264) and `CSN = 1` (R146, R147). -/
def onBus (checks : List (Bool × Refusal)) (s : State) (effect : State → State) : Result :=
  match firstRefusal ((!s.csOe, .notInit) :: checks) with
  | some r => .refused r
  | none => if s.csn then .next (effect s) else .fault .busHeld

/-- Sample the operands (R22). -/
def State.sample (o : Operands) (s : State) : State := { s with opnd := o }

/-- A request without bus activity: dropped when `BUSY = 1` (R102), else tested, its operands sampled, its effect taken. -/
def request (i : Instr) (checks : List (Bool × Refusal)) (s : State) (effect : State → State) : Result :=
  if s.busy then .next s else guarded checks s fun t => effect (t.sample (fieldsOf i))

/-- A request with bus activity: dropped when `BUSY = 1` (R102), else tested, its operands sampled, its effect taken. -/
def busRequest (i : Instr) (checks : List (Bool × Refusal)) (s : State) (effect : State → State) : Result :=
  if s.busy then .next s else onBus checks s fun t => effect (t.sample (fieldsOf i))

/-- The tests of a format-P control byte, in the order of R264 (R152). -/
def ctlChecks (wr : Bool) (ctl : Byte) : List (Bool × Refusal) :=
  [(badCtlWidth ctl, .ctlWidth), (badCtlDir wr ctl, .ctlDir), (badCtlBank ctl, .ctlBank)]

/-- The tests of a raw run, in the order of R264 (R152). -/
def runChecks (addr len : Word) : List (Bool × Refusal) :=
  [(lenIsZero len, .lenZero), (runTooHigh addr.toNat len.toNat, .addrRange)]

/-- The test of a socket-register access of `width` bytes (R176). -/
def regChecks (c : Cfg) (sock : Sock) (off : Word) (width : Nat) : List (Bool × Refusal) :=
  [(runTooHigh ((c.sregBase sock).toNat + off.toNat) width, .addrRange)]

/-- The tests of a ring transfer's length (R211). -/
def ringChecks (size : Nat) (len : Word) : List (Bool × Refusal) :=
  [(lenIsZero len, .lenZero), (lenOverBuffer size len, .lenRange)]

/-- `DIN` holds fewer than `LEN` bytes (R32). -/
def dinChecks (s : State) (len : Word) : List (Bool × Refusal) :=
  [(decide (s.din.length < len.toNat), .dinShort)]

/-! ## The loops: one poll, one compare read -/

/-- The socket of the operation in progress, from its sampled operands (R22). -/
def State.sock (s : State) : Sock := selSock s.opnd.sel

/-- POLL of R244: read the command register once; IDLE if it reads 0, else poll again. -/
def pollCommand (s : State) : State :=
  let p := snRd1 s.sock s.cfg.offCr s
  p.2.setSeq (if p.1 == 0 then .idle else .execPoll)

/-- One further read of the compare loop of R246 at register `off`: equal to the read before it, it is the result and the
operation ends; else it becomes `VPREV` and the loop goes on at `again`. -/
def compareRead (off : Word) (again : Seq) (s : State) : State :=
  let p := snRd2 s.sock off s
  if p.1 == s.vprev then (p.2.setRes p.1).setSeq .idle else (p.2.setVprev p.1).setSeq again

/-- `StableRead16` up to its first comparison (R246): the first read goes to `VPREV`, the second is compared. -/
def stableRead (off : Word) (again : Seq) (s : State) : State :=
  let p := snRd2 s.sock off s
  compareRead off again (p.2.setVprev p.1)

/-! ## One frame -/

/-- The bytes of the due transaction's data phase (R108). -/
def State.phaseData (s : State) : List Byte :=
  match s.seq with
  | .xfer _ d _ => d
  | .idle | .execPoll | .txfreeRead | .rxsizeRead => []

/-- How many bytes the due transaction reads (R108, R109). -/
def State.phaseLen (s : State) : Nat :=
  match s.seq with
  | .xfer _ _ n => n
  | .idle | .execPoll | .txfreeRead | .rxsizeRead => 0

/-- A write frame: one BusWrite of the data phase, then SEQ is idle (R146). A frame has at least one data byte (R109, R153). -/
def frameWrite (addr : Word) (ctl : Byte) (s : State) : Result :=
  onBus [(s.phaseData.isEmpty, .lenZero), (runTooHigh addr.toNat s.phaseData.length, .addrRange)] s
    fun t => (busWrite addr ctl t.phaseData t).setSeq .idle

/-- A read frame: one BusRead of the data phase's length, then SEQ is idle (R147). The bytes read are in TRACE. -/
def frameRead (addr : Word) (ctl : Byte) (s : State) : Result :=
  onBus [(s.phaseLen == 0, .lenZero), (runTooHigh addr.toNat s.phaseLen, .addrRange)] s
    fun t => (busRead addr ctl t.phaseLen t).2.setSeq .idle

/-! ## The host's turn and reset -/

/-- The host writes `REQ`: dropped while `BUSY = 1` (R102, U17). -/
def State.writeReq (w : ReqWord) (s : State) : State := if s.busy then s else { s with req := some w }

/-- Reset (R290): RBAT's state as R44 gives it. The configuration stays, and so does what stands for the environment: the chip's
answers to come and the host's acts to come. -/
def State.resetInput (s : State) : State :=
  { State.reset with cfg := s.cfg, chip := s.chip, drawn := s.drawn, inbox := s.inbox }

/-- One act of the host on the block. -/
def State.hostAct (s : State) : HostAct → Result
  | .pause => .next s
  | .await => .next s
  | .writeReq w => .next (s.writeReq w)
  | .putDin d => .next { s with din := s.din ++ d }
  | .takeDout n => .next { s with dout := s.dout.drop n }
  | .reset => if s.busy then .refused .resetBusy else .next s.resetInput

/-- The host still waits: `BUSY = 1`, or its last request has not been taken (R271, R307). -/
def State.mustWait (s : State) : HostAct → Bool
  | .await => s.busy || s.req.isSome
  | .pause | .writeReq _ | .putDin _ | .takeDout _ | .reset => false

/-- The host's turn: its next act, if it has one and does not wait (log 7). -/
def hostTurn (s : State) : Result :=
  match s.inbox with
  | [] => .next s
  | a :: rest => if s.mustWait a then .next s else State.hostAct { s with inbox := rest } a

end Sys2Proof.Machine
end

