-- ==== Sys2Proof/Machine/Accessor.lean ====
section
/-! DEFINITION. The socket register accessor: SNWR1, SNRD1, SNWR2, SNRD2 (41_socket_accessor R170 to R176). -/

namespace Sys2Proof.Machine

/-- SNWR1 (R172). `RES` is left alone. -/
def execSnwr1 (sock : Sock) (off : Word) (dat : Byte) (s : State) : Result :=
  busRequest (.snwr1 sock off dat) (regChecks s.cfg sock off 1) s fun t => snWr1 sock off dat t

/-- SNRD1 (R173): the byte, zero-extended into `RES`. -/
def execSnrd1 (sock : Sock) (off : Word) (s : State) : Result :=
  busRequest (.snrd1 sock off) (regChecks s.cfg sock off 1) s fun t =>
    let p := snRd1 sock off t
    p.2.setRes (p.1.zeroExtend 16)

/-- SNWR2 (R174): one transaction with two data bytes, high byte first. `RES` is left alone. -/
def execSnwr2 (sock : Sock) (off dat : Word) (s : State) : Result :=
  busRequest (.snwr2 sock off dat) (regChecks s.cfg sock off 2) s fun t => snWr2 sock off dat t

/-- SNRD2 (R175): one unguarded read of two bytes, high byte first, into `RES`. -/
def execSnrd2 (sock : Sock) (off : Word) (s : State) : Result :=
  busRequest (.snrd2 sock off) (regChecks s.cfg sock off 2) s fun t =>
    let p := snRd2 sock off t
    p.2.setRes p.1

end Sys2Proof.Machine
end

