-- ==== Sys2Proof/Machine/Command.lean ====
section
/-! DEFINITION. The command/status executor: EXEC, TXFREE, RXSIZE (44_command_status R240 to R252). Each runs up to its first test;
where the test fails, `BUSY` stays 1 and every further poll or read is a step of its own (R266, log 1). -/

namespace Sys2Proof.Machine

/-- EXEC (R242, R244): write the command, then the first poll. -/
def execExecCmd (sock : Sock) (cmd : Byte) (s : State) : Result :=
  busRequest (.execCmd sock cmd) [] s fun t => pollCommand (snWr1 sock t.cfg.offCr cmd t)

/-- TXFREE (R245): the first two reads of the compare loop at the TX free size. -/
def execTxfree (sock : Sock) (s : State) : Result :=
  busRequest (.txfree sock) [] s fun t => stableRead t.cfg.offTxFsr .txfreeRead t

/-- RXSIZE (R249): the first two reads of the compare loop at the RX received size. -/
def execRxsize (sock : Sock) (s : State) : Result :=
  busRequest (.rxsize sock) [] s fun t => stableRead t.cfg.offRxRsr .rxsizeRead t

/-- A further poll of EXEC (R244). -/
def continueExec (s : State) : Result := onBus [] s pollCommand

/-- A further read of TXFREE (R245, R246). -/
def continueTxfree (s : State) : Result := onBus [] s fun t => compareRead t.cfg.offTxFsr .txfreeRead t

/-- A further read of RXSIZE (R246, R249). -/
def continueRxsize (s : State) : Result := onBus [] s fun t => compareRead t.cfg.offRxRsr .rxsizeRead t

end Sys2Proof.Machine
end

