-- ==== Sys2Proof/Machine/Frame.lean ====
section
/-! DEFINITION. The six bus frames of the opcode table (30_encoding R108 to R114): each is one BusRead or BusWrite (R146, R147)
with the control byte of its kind. The address and the socket are the header's; the data phase is the due transaction's (log 8). -/

namespace Sys2Proof.Machine

/-- F_RD_GEN (R113, R147). -/
def execFRdGen (a : Word) (s : State) : Result := frameRead a (genCtl false) s

/-- F_WR_GEN (R113, R146). -/
def execFWrGen (a : Word) (s : State) : Result := frameWrite a (genCtl true) s

/-- F_RD_SREG (R113, R147). -/
def execFRdSreg (a : Word) (sock : Sock) (s : State) : Result := frameRead a (rdCtl sock) s

/-- F_WR_SREG (R113, R146). -/
def execFWrSreg (a : Word) (sock : Sock) (s : State) : Result := frameWrite a (wrCtl sock) s

/-- F_WR_TXB (R113, R146). -/
def execFWrTxb (a : Word) (sock : Sock) (s : State) : Result := frameWrite a (snCtl sock s.cfg.bankTx true) s

/-- F_RD_RXB (R113, R147). -/
def execFRdRxb (a : Word) (sock : Sock) (s : State) : Result := frameRead a (snCtl sock s.cfg.bankRx false) s

end Sys2Proof.Machine
end

