-- ==== Sys2Proof/Machine/Primitive.lean ====
section
/-! DEFINITION. The bus transaction primitive: INIT, WR1, WRN, RD1, RDN (40_bus_primitive R142, R148 to R152). -/

namespace Sys2Proof.Machine

/-- INIT (R142): the chip-select line becomes an output, driven high. No transaction. -/
def execInit (s : State) : Result :=
  request .init [] s fun t => { t with csn := true, csOe := true }

/-- WR1 (R148): `BusWrite(ADDR, CTL, [DAT[7:0]])`. `RES` is left alone. -/
def execWr1 (ctl : Byte) (addr : Word) (dat : Byte) (s : State) : Result :=
  busRequest (.wr1 ctl addr dat) (ctlChecks true ctl) s fun t => busWrite addr ctl [dat] t

/-- WRN (R149): `LEN` bytes of `DIN` in one transaction; `RES` is their number. -/
def execWrn (ctl : Byte) (addr len : Word) (s : State) : Result :=
  busRequest (.wrn ctl addr len) (ctlChecks true ctl ++ runChecks addr len ++ dinChecks s len) s fun t =>
    let d := t.din.take len.toNat
    (busWrite addr ctl d (t.dropDin len.toNat)).setRes (BitVec.ofNat 16 d.length)

/-- RD1 (R150): one byte read, zero-extended into `RES`. -/
def execRd1 (ctl : Byte) (addr : Word) (s : State) : Result :=
  busRequest (.rd1 ctl addr) (ctlChecks false ctl) s fun t =>
    let p := busRead addr ctl 1 t
    p.2.setRes ((byteOfBytes p.1).zeroExtend 16)

/-- RDN (R151): `LEN` bytes read in one transaction go to `DOUT`; `RES` is `LEN`. -/
def execRdn (ctl : Byte) (addr len : Word) (s : State) : Result :=
  busRequest (.rdn ctl addr len) (ctlChecks false ctl ++ runChecks addr len) s fun t =>
    let p := busRead addr ctl len.toNat t
    (p.2.putDout p.1).setRes len

end Sys2Proof.Machine
end

