-- ==== Sys2Proof/Machine/Transfer.lean ====
section
/-! DEFINITION. The transfer orchestrator: RDDATA, SEND, SENDOFS, RECV (43_transfer R210 to R228). -/

namespace Sys2Proof.Machine

/-- RDDATA (R212): `LEN` bytes of the receive buffer from the logical offset the host gives. No pointer is read or moved (R214). -/
def execRddata (sock : Sock) (src len : Word) (s : State) : Result :=
  busRequest (.rddata sock src len) (ringChecks Config.rsize len) s fun t =>
    let p := ringRead sock src len.toNat t
    p.2.putDout p.1

/-- SEND (R216): `LEN` bytes of `DIN` to the transmit buffer at the chip's write pointer, then the advanced pointer is written
back, not reduced modulo the buffer size (R217). -/
def execSend (sock : Sock) (len : Word) (s : State) : Result :=
  busRequest (.send sock len) (ringChecks Config.ssize len ++ dinChecks s len) s fun t =>
    let p := snRd2 sock t.cfg.offTxWr t
    let u := p.2.setPtr p.1
    let d := u.din.take len.toNat
    snWr2 sock t.cfg.offTxWr (advance p.1 len) (ringWrite sock p.1 d (u.dropDin len.toNat))

/-- SENDOFS (R221): the same at an absolute logical offset (R220, C2), with no register access; `RES` is the advanced offset. -/
def execSendofs (sock : Sock) (offset len : Word) (s : State) : Result :=
  busRequest (.sendofs sock offset len) (ringChecks Config.ssize len ++ dinChecks s len) s fun t =>
    let d := t.din.take len.toNat
    (ringWrite sock offset d (t.dropDin len.toNat)).setRes (advance offset len)

/-- RECV (R226): `LEN` bytes of the receive buffer at the chip's read pointer; unless peeking, the advanced pointer is written
back (R217). -/
def execRecv (sock : Sock) (peek : Bool) (len : Word) (s : State) : Result :=
  busRequest (.recv sock peek len) (ringChecks Config.rsize len) s fun t =>
    let p := snRd2 sock t.cfg.offRxRd t
    let q := ringRead sock p.1 len.toNat (p.2.setPtr p.1)
    let u := q.2.putDout q.1
    if peek then u else snWr2 sock t.cfg.offRxRd (advance p.1 len) u

end Sys2Proof.Machine
end

