-- ==== Sys2Proof/Machine/Translator.lean ====
section
/-! DEFINITION. The ring buffer translator as an operation: XLATE (42_ring_translator R197). The function itself is `xlate` in
Machine/Operands.lean (R192). -/

namespace Sys2Proof.Machine

/-- XLATE (R197): the four `SEG*` registers from `Xlate(p, n, 2048, B)`. No bus, no test of `CS_OE`. -/
def execXlate (p n base : Word) (s : State) : Result :=
  request (.xlate p n base) [(lenOverBuffer 2048 n, .lenRange), (baseTooHigh base, .baseRange)] s fun t =>
    t.setSegs (xlate p.toNat n.toNat 2048 base.toNat) base.toNat

end Sys2Proof.Machine
end

