-- ==== Sys2Proof/Machine/Dispatch.lean ====
section
/-! DEFINITION. exec: one arm for each constructor of Instr, each a direct call of its meaning. -/

namespace Sys2Proof.Machine

def exec (i : Instr) (s : State) : Host.Outcome State Fault Refusal :=
  match i with
  | .init => Sys2Proof.Machine.execInit s
  | .wr1 ctl addr dat => Sys2Proof.Machine.execWr1 ctl addr dat s
  | .wrn ctl addr len => Sys2Proof.Machine.execWrn ctl addr len s
  | .rd1 ctl addr => Sys2Proof.Machine.execRd1 ctl addr s
  | .rdn ctl addr len => Sys2Proof.Machine.execRdn ctl addr len s
  | .snwr1 sock off dat => Sys2Proof.Machine.execSnwr1 sock off dat s
  | .snrd1 sock off => Sys2Proof.Machine.execSnrd1 sock off s
  | .snwr2 sock off dat => Sys2Proof.Machine.execSnwr2 sock off dat s
  | .snrd2 sock off => Sys2Proof.Machine.execSnrd2 sock off s
  | .xlate p n base => Sys2Proof.Machine.execXlate p n base s
  | .rddata sock src len => Sys2Proof.Machine.execRddata sock src len s
  | .send sock len => Sys2Proof.Machine.execSend sock len s
  | .sendofs sock offset len => Sys2Proof.Machine.execSendofs sock offset len s
  | .recv sock peek len => Sys2Proof.Machine.execRecv sock peek len s
  | .execCmd sock cmd => Sys2Proof.Machine.execExecCmd sock cmd s
  | .txfree sock => Sys2Proof.Machine.execTxfree sock s
  | .rxsize sock => Sys2Proof.Machine.execRxsize sock s
  | .fRdGen a => Sys2Proof.Machine.execFRdGen a s
  | .fWrGen a => Sys2Proof.Machine.execFWrGen a s
  | .fRdSreg a sock => Sys2Proof.Machine.execFRdSreg a sock s
  | .fWrSreg a sock => Sys2Proof.Machine.execFWrSreg a sock s
  | .fWrTxb a sock => Sys2Proof.Machine.execFWrTxb a sock s
  | .fRdRxb a sock => Sys2Proof.Machine.execFRdRxb a sock s

end Sys2Proof.Machine
end

