-- ==== Sys2Proof/Machine/Fetch.lean ====
section
/-! DEFINITION. What the next turn of RBAT is: a continuing loop, a due frame, a request taken from REQ, or nothing (R26, R102). -/

namespace Sys2Proof.Machine

/-- The next turn of RBAT. -/
inductive Turn where
  /-- Idle with nothing pending in REQ. -/
  | rest
  /-- Run an instruction from this state. -/
  | run (i : Instr) (s : State)
  /-- Go on with the operation in progress. -/
  | goOn (r : Result)
  /-- The word or header is reserved. -/
  | refuse (r : Refusal)

/-- Take the pending request (R100). -/
def State.takeReq (s : State) : State := { s with req := none }

/-- What a decoder's answer leads to. -/
def turnOf (bad : Refusal) (s : State) : Decoded → Turn
  | .instr i => .run i s
  | .reserved _ => .refuse bad

/-- Fetch: where `SEQ` is not idle the operation goes on or the due frame is decoded; where it is idle, `REQ` is decoded if the
host has written it (R26, R102, R106). -/
def fetch (s : State) : Turn :=
  match s.seq with
  | .execPoll => .goOn (continueExec s)
  | .txfreeRead => .goOn (continueTxfree s)
  | .rxsizeRead => .goOn (continueRxsize s)
  | .xfer h _ _ => turnOf .frameKind s (decodeFrame s.cfg h)
  | .idle =>
    match s.req with
    | none => .rest
    | some w => turnOf .reserved s.takeReq (decodeReq w)

/-- The host writes this request word to an idle RBAT. -/
def State.placeReq (s : State) (w : ReqWord) : State := { s with seq := .idle, req := some w }

/-- This frame is the transaction that is due, with a data phase of one byte: a zero byte if it is a write (log 8). -/
def State.placeFrame (s : State) (h : Header) : State := { s with seq := .xfer h [0] 1 }

/-- Place an instruction, its bits numbered as the table numbers them, where `fetch` takes the next one (log 9). -/
def State.placeWord (s : State) (nbits w : Nat) : State :=
  if nbits = 24 then s.placeFrame (BitVec.ofNat 24 w) else s.placeReq (BitVec.ofNat 64 w)

end Sys2Proof.Machine
end

