-- ==== Sys2Proof/Machine/Step.lean ====
section
/-! DEFINITION. One step: RBAT's turn, then the host's turn (R20, R26, R102, log 7). -/

namespace Sys2Proof.Machine

/-- RBAT's turn. -/
def rbatTurn (s : State) : Host.Outcome State Fault Refusal :=
  match fetch s with
  | .rest => .next s
  | .run i t => exec i t
  | .goOn r => r
  | .refuse r => .refused r

/-- One step of the machine. -/
def step (s : State) : Host.Outcome State Fault Refusal :=
  match rbatTurn s with
  | .next t => hostTurn t
  | .fault f => .fault f
  | .refused r => .refused r

/-- The state with this instruction placed where `step` fetches its next one. -/
def State.withFetchWord (s : State) (nbits w : Nat) : State := s.placeWord nbits w

end Sys2Proof.Machine
end

