-- ==== Sys2Proof/Safety.lean ====
section
/-! DEFINITION. The words claims are made in: what a list of transactions looks like on the wires and leaves in the chip, which
transactions are legal, what each operation may write, and the invariant of a run (R34, R143 to R145, R25, R69). -/

namespace Sys2Proof

namespace Machine

/-! ## Transactions -/

/-- The address of data byte 0. -/
def Txn.addr : Txn → Word
  | .w a _ _ => a
  | .r a _ _ => a

/-- The control byte. -/
def Txn.ctl : Txn → Byte
  | .w _ c _ => c
  | .r _ c _ => c

/-- The data bytes, written or read. -/
def Txn.data : Txn → List Byte
  | .w _ _ d => d
  | .r _ _ d => d

/-- A BusWrite, as against a BusRead. -/
def Txn.isWrite : Txn → Bool
  | .w _ _ _ => true
  | .r _ _ _ => false

/-- The bytes one transaction moves: header and data (R310). -/
def Txn.cost (t : Txn) : Nat := Config.hdrlen + t.data.length

/-- One whole frame on the wires: chip-select falls, header, data phase, chip-select rises (R108, R116, R143). -/
def Txn.onWire (dummy : Byte) : Txn → List Wire
  | .w a c d => .fall :: ((headerBytes a c).map Wire.out ++ d.map Wire.out ++ [.rise])
  | .r a c d => .fall :: ((headerBytes a c).map Wire.out ++ List.replicate d.length (.out dummy) ++ [.rise])

/-- The frames of a list of transactions, one after the other. -/
def wireOf (dummy : Byte) (ts : List Txn) : List Wire := ts.flatMap (Txn.onWire dummy)

/-- What a transaction leaves in the chip space (R146). -/
def Txn.store (m : Memory) : Txn → Memory
  | .w a c d => Memory.writeRun (locOf c a.toNat) d m
  | .r _ _ _ => m

/-- What a list of transactions leaves in the chip space. -/
def memAfter (ts : List Txn) (m : Memory) : Memory := ts.foldl Txn.store m

/-- A transaction RBAT may perform: at least one data byte (R153), inside the address space (R67), the direction bit right (R110),
bits [1:0] zero (R117), no socket bits with the general bank (R118). -/
abbrev Txn.Legal (t : Txn) : Prop :=
  t.data ≠ [] ∧ t.addr.toNat + t.data.length ≤ 65536 ∧ ctlWrite t.ctl = t.isWrite ∧ badCtlWidth t.ctl = false ∧
    badCtlBank t.ctl = false

/-- The read transactions of a split transfer, which return these bytes (R213). -/
def readTxns (ctl : Byte) : List (Nat × Nat) → List Byte → List Txn
  | [], _ => []
  | p :: ps, bs => .r (BitVec.ofNat 16 p.1) ctl (bs.take p.2) :: readTxns ctl ps (bs.drop p.2)

/-- The write transactions of a split transfer of these bytes (R213). -/
def writeTxns (ctl : Byte) : List (Nat × Nat) → List Byte → List Txn
  | [], _ => []
  | p :: ps, d => .w (BitVec.ofNat 16 p.1) ctl (d.take p.2) :: writeTxns ctl ps (d.drop p.2)

/-- The translation RDDATA and RECV use (R213). -/
def rxPieces (c : Cfg) (sock : Sock) (p len : Word) : List (Nat × Nat) :=
  xlate p.toNat len.toNat Config.rsize (c.rxBase sock).toNat

/-- The translation SEND and SENDOFS use (R213). -/
def txPieces (c : Cfg) (sock : Sock) (p len : Word) : List (Nat × Nat) :=
  xlate p.toNat len.toNat Config.ssize (c.txBase sock).toNat

/-- The `SEG*` values of a translation at base `B` (R197, R213). -/
def segsOf (segs : List (Nat × Nat)) (B : Word) : Segs :=
  ⟨BitVec.ofNat 16 (firstPiece segs).1, BitVec.ofNat 16 (firstPiece segs).2, B, BitVec.ofNat 16 (secondLen segs)⟩

/-- The state after these transactions: TRACE, the wires and the chip space (R34, R143, R146). -/
def State.did (ts : List Txn) (s : State) : State :=
  { s with trace := s.trace ++ ts, wire := s.wire ++ wireOf s.cfg.dummy ts, chipMem := memAfter ts s.chipMem }

/-- The state after the chip has answered `n` bytes (R147). -/
def State.drew (n : Nat) (s : State) : State :=
  { s with chip := s.chip.drop n, drawn := s.drawn + (n - s.chip.length) }

/-! ## What an operation may write (R25) -/

end Machine

open Machine

/-- The operations that write `RES` (R23). -/
def Instr.writesRes : Instr → Bool
  | .rd1 _ _ | .snrd1 _ _ | .snrd2 _ _ | .wrn _ _ _ | .rdn _ _ _ | .sendofs _ _ _ | .txfree _ | .rxsize _ => true
  | .init | .wr1 _ _ _ | .snwr1 _ _ _ | .snwr2 _ _ _ | .xlate _ _ _ | .rddata _ _ _ | .send _ _ | .recv _ _ _ | .execCmd _ _
  | .fRdGen _ | .fWrGen _ | .fRdSreg _ _ | .fWrSreg _ _ | .fWrTxb _ _ | .fRdRxb _ _ => false

/-- The operations that write `SEG1A`, `SEG1L`, `SEG2A`, `SEG2L` (R24). -/
def Instr.writesSegs : Instr → Bool
  | .xlate _ _ _ | .rddata _ _ _ | .send _ _ | .sendofs _ _ _ | .recv _ _ _ => true
  | .init | .wr1 _ _ _ | .wrn _ _ _ | .rd1 _ _ | .rdn _ _ _ | .snwr1 _ _ _ | .snrd1 _ _ | .snwr2 _ _ _ | .snrd2 _ _
  | .execCmd _ _ | .txfree _ | .rxsize _ | .fRdGen _ | .fWrGen _ | .fRdSreg _ _ | .fWrSreg _ _ | .fWrTxb _ _
  | .fRdRxb _ _ => false

/-- How many bytes an operation takes from `DIN` (R25, R32). -/
def Instr.takesDin : Instr → Nat
  | .wrn _ _ len | .send _ len | .sendofs _ _ len => len.toNat
  | .init | .wr1 _ _ _ | .rd1 _ _ | .rdn _ _ _ | .snwr1 _ _ _ | .snrd1 _ _ | .snwr2 _ _ _ | .snrd2 _ _ | .xlate _ _ _
  | .rddata _ _ _ | .recv _ _ _ | .execCmd _ _ | .txfree _ | .rxsize _ | .fRdGen _ | .fWrGen _ | .fRdSreg _ _
  | .fWrSreg _ _ | .fWrTxb _ _ | .fRdRxb _ _ => 0

/-- How many bytes an operation appends to `DOUT` (R25, R33). -/
def Instr.putsDout : Instr → Nat
  | .rdn _ _ len | .rddata _ _ len | .recv _ _ len => len.toNat
  | .init | .wr1 _ _ _ | .wrn _ _ _ | .rd1 _ _ | .snwr1 _ _ _ | .snrd1 _ _ | .snwr2 _ _ _ | .snrd2 _ _ | .xlate _ _ _
  | .send _ _ | .sendofs _ _ _ | .execCmd _ _ | .txfree _ | .rxsize _ | .fRdGen _ | .fWrGen _ | .fRdSreg _ _
  | .fWrSreg _ _ | .fWrTxb _ _ | .fRdRxb _ _ => 0

namespace Machine

/-- A run of chip locations: the first one and how many. -/
abbrev Run := Nat × Nat

/-- The locations an operation stores to, from the state it starts in, with the functions its meaning uses (R66, R146, R213). -/
def storedRuns (i : Instr) (s : State) : List Run :=
  match i with
  | .wr1 ctl addr _ => [(locOf ctl addr.toNat, 1)]
  | .wrn ctl addr len => [(locOf ctl addr.toNat, len.toNat)]
  | .snwr1 sock off _ => [(locOf (wrCtl sock) (regAddr s.cfg sock off).toNat, 1)]
  | .snwr2 sock off _ => [(locOf (wrCtl sock) (regAddr s.cfg sock off).toNat, 2)]
  | .send sock len =>
    (locOf (wrCtl sock) (regAddr s.cfg sock s.cfg.offTxWr).toNat, 2) ::
      (txPieces s.cfg sock (wordOfBytes (s.nextBytes 2)) len).map fun p => (locOf (snCtl sock s.cfg.bankTx true) p.1, p.2)
  | .sendofs sock offset len =>
    (txPieces s.cfg sock offset len).map fun p => (locOf (snCtl sock s.cfg.bankTx true) p.1, p.2)
  | .recv sock peek _ => if peek then [] else [(locOf (wrCtl sock) (regAddr s.cfg sock s.cfg.offRxRd).toNat, 2)]
  | .execCmd sock _ => [(locOf (wrCtl sock) (regAddr s.cfg sock s.cfg.offCr).toNat, 1)]
  | .fWrGen a => [(locOf (genCtl true) a.toNat, s.phaseData.length)]
  | .fWrSreg a sock => [(locOf (wrCtl sock) a.toNat, s.phaseData.length)]
  | .fWrTxb a sock => [(locOf (snCtl sock s.cfg.bankTx true) a.toNat, s.phaseData.length)]
  | .init | .rd1 _ _ | .rdn _ _ _ | .snrd1 _ _ | .snrd2 _ _ | .xlate _ _ _ | .rddata _ _ _ | .txfree _ | .rxsize _
  | .fRdGen _ | .fRdSreg _ _ | .fRdRxb _ _ => []

/-- A location outside a run. -/
abbrev Run.misses (r : Run) (a : Nat) : Prop := a < r.1 ∨ r.1 + r.2 ≤ a

/-! ## Which reason a refusal names (R264) -/

end Machine

open Machine

/-- Operations with a bus transaction: all but INIT and XLATE (R60, R292). -/
def Instr.usesBus : Instr → Bool
  | .init | .xlate _ _ _ => false
  | .wr1 _ _ _ | .wrn _ _ _ | .rd1 _ _ | .rdn _ _ _ | .snwr1 _ _ _ | .snrd1 _ _ | .snwr2 _ _ _ | .snrd2 _ _
  | .rddata _ _ _ | .send _ _ | .sendofs _ _ _ | .recv _ _ _ | .execCmd _ _ | .txfree _ | .rxsize _
  | .fRdGen _ | .fWrGen _ | .fRdSreg _ _ | .fWrSreg _ _ | .fWrTxb _ _ | .fRdRxb _ _ => true

/-- The host-supplied control byte of a format-P request, with the direction it must have (R152). -/
def Instr.rawCtl : Instr → Option (Bool × Byte)
  | .wr1 ctl _ _ => some (true, ctl)
  | .wrn ctl _ _ => some (true, ctl)
  | .rd1 ctl _ => some (false, ctl)
  | .rdn ctl _ _ => some (false, ctl)
  | .init | .xlate _ _ _ | .snwr1 _ _ _ | .snrd1 _ _ | .snwr2 _ _ _ | .snrd2 _ _ | .rddata _ _ _ | .send _ _
  | .sendofs _ _ _ | .recv _ _ _ | .execCmd _ _ | .txfree _ | .rxsize _
  | .fRdGen _ | .fWrGen _ | .fRdSreg _ _ | .fWrSreg _ _ | .fWrTxb _ _ | .fRdRxb _ _ => none

namespace Machine

/-- A control byte whose effect on the chip the spec does not give, by its bits: the reason of R152. -/
def ctlReason (wr : Bool) (ctl : Byte) : Option Refusal :=
  if ctl &&& 0x03 ≠ 0 then some .ctlWidth
  else if (ctl &&& 0x04 ≠ 0) ≠ (wr = true) then some .ctlDir
  else if ctl &&& 0x18 = 0 ∧ ctl &&& 0xE0 ≠ 0 then some .ctlBank
  else none

end Machine

open Machine

/-- The number of data bytes that must not be zero: `LEN` of a run or a transfer, or a frame's data phase (R153, R211). -/
def Instr.mustMove (s : State) : Instr → Option Nat
  | .wrn _ _ len | .rdn _ _ len | .rddata _ _ len | .send _ len | .sendofs _ _ len | .recv _ _ len => some len.toNat
  | .fWrGen _ | .fWrSreg _ _ | .fWrTxb _ _ => some s.phaseData.length
  | .fRdGen _ | .fRdSreg _ _ | .fRdRxb _ _ => some s.phaseLen
  | .init | .xlate _ _ _ | .wr1 _ _ _ | .rd1 _ _ | .snwr1 _ _ _ | .snrd1 _ _ | .snwr2 _ _ _ | .snrd2 _ _
  | .execCmd _ _ | .txfree _ | .rxsize _ => none

/-- The length that must not pass the buffer size (R197, R211); 0 where there is none. -/
def Instr.ringLen : Instr → Nat
  | .xlate _ n _ => n.toNat
  | .rddata _ _ len | .send _ len | .sendofs _ _ len | .recv _ _ len => len.toNat
  | .init | .wr1 _ _ _ | .wrn _ _ _ | .rd1 _ _ | .rdn _ _ _ | .snwr1 _ _ _ | .snrd1 _ _ | .snwr2 _ _ _ | .snrd2 _ _
  | .execCmd _ _ | .txfree _ | .rxsize _ | .fRdGen _ | .fWrGen _ | .fRdSreg _ _ | .fWrSreg _ _ | .fWrTxb _ _
  | .fRdRxb _ _ => 0

/-- The base XLATE is given (R197); 0 where there is none. -/
def Instr.xlateBase : Instr → Nat
  | .xlate _ _ base => base.toNat
  | .init | .wr1 _ _ _ | .wrn _ _ _ | .rd1 _ _ | .rdn _ _ _ | .snwr1 _ _ _ | .snrd1 _ _ | .snwr2 _ _ _ | .snrd2 _ _
  | .rddata _ _ _ | .send _ _ | .sendofs _ _ _ | .recv _ _ _ | .execCmd _ _ | .txfree _ | .rxsize _
  | .fRdGen _ | .fWrGen _ | .fRdSreg _ _ | .fWrSreg _ _ | .fWrTxb _ _ | .fRdRxb _ _ => 0

/-- One past the last chip address of a run whose address the host or the header gives (R67, R152, R176); 0 where there is none. -/
def Instr.runEnd (s : State) : Instr → Nat
  | .wrn _ addr len | .rdn _ addr len => addr.toNat + len.toNat
  | .snwr1 sock off _ | .snrd1 sock off => (s.cfg.sregBase sock).toNat + off.toNat + 1
  | .snwr2 sock off _ | .snrd2 sock off => (s.cfg.sregBase sock).toNat + off.toNat + 2
  | .fWrGen a | .fWrSreg a _ | .fWrTxb a _ => a.toNat + s.phaseData.length
  | .fRdGen a | .fRdSreg a _ | .fRdRxb a _ => a.toNat + s.phaseLen
  | .init | .wr1 _ _ _ | .rd1 _ _ | .xlate _ _ _ | .rddata _ _ _ | .send _ _ | .sendofs _ _ _ | .recv _ _ _
  | .execCmd _ _ | .txfree _ | .rxsize _ => 0

namespace Machine

/-- The reason a decoded instruction is refused with, in the order of R264 (Reserved, the first of them, is the decoder's). -/
def expectedRefusal (i : Instr) (s : State) : Option Refusal :=
  if i.usesBus = true ∧ s.csOe = false then some .notInit
  else if let some r := i.rawCtl.bind fun p => ctlReason p.1 p.2 then some r
  else if i.mustMove s = some 0 then some .lenZero
  else if 2048 < i.ringLen then some .lenRange
  else if 0xF800 < i.xlateBase then some .baseRange
  else if 65536 < i.runEnd s then some .addrRange
  else if s.din.length < i.takesDin then some .dinShort
  else none

/-! ## How many transactions, and how long (R69) -/

/-- Direction and data length of each transaction of an operation, up to the first test of a loop (R69). -/
def shapeOf (i : Instr) (s : State) : List (Bool × Nat) :=
  match i with
  | .init | .xlate _ _ _ => []
  | .wr1 _ _ _ | .snwr1 _ _ _ => [(true, 1)]
  | .rd1 _ _ | .snrd1 _ _ => [(false, 1)]
  | .snwr2 _ _ _ => [(true, 2)]
  | .snrd2 _ _ => [(false, 2)]
  | .wrn _ _ len => [(true, len.toNat)]
  | .rdn _ _ len => [(false, len.toNat)]
  | .rddata sock src len => (rxPieces s.cfg sock src len).map fun p => (false, p.2)
  | .send sock len =>
    (false, 2) :: ((txPieces s.cfg sock (wordOfBytes (s.nextBytes 2)) len).map fun p => (true, p.2)) ++ [(true, 2)]
  | .sendofs sock offset len => (txPieces s.cfg sock offset len).map fun p => (true, p.2)
  | .recv sock peek len =>
    (false, 2) :: ((rxPieces s.cfg sock (wordOfBytes (s.nextBytes 2)) len).map fun p => (false, p.2)) ++
      (if peek then [] else [(true, 2)])
  | .execCmd _ _ => [(true, 1), (false, 1)]
  | .txfree _ | .rxsize _ => [(false, 2), (false, 2)]
  | .fRdGen _ | .fRdSreg _ _ | .fRdRxb _ _ => [(false, s.phaseLen)]
  | .fWrGen _ | .fWrSreg _ _ | .fWrTxb _ _ => [(true, s.phaseData.length)]

/-! ## Safe states -/

/-- Initialised and idle: the state in which an operation of the bus may start (R102, R145, R292). -/
abbrev State.Ready (s : State) : Prop := s.seq = .idle ∧ s.csOe = true ∧ s.csn = true

/-- The operation code of the operation whose loop `SEQ` stands in (R22, R26). -/
def Seq.opCode : Seq → Option Byte
  | .execPoll => some 0x0F
  | .txfreeRead => some 0x10
  | .rxsizeRead => some 0x11
  | .idle | .xfer _ _ _ => none

/-- What holds between any two steps of a run. -/
structure State.Inv (s : State) : Prop where
  /-- The configuration meets its constraints (R6). -/
  cfgOk : s.cfg.Ok
  /-- Chip-select is released (R145). -/
  csnHigh : s.csn = true
  /-- Nothing runs before INIT (R292). -/
  busyInit : s.busy = true → s.csOe = true
  /-- The sampled operands are those of the operation in progress (R22). -/
  seqOp : ∀ c, s.seq.opCode = some c → s.opnd.op = c
  /-- The chip space is in canonical form. -/
  memWf : Memory.wf s.chipMem = true
  /-- The chip space is what the transactions of TRACE have left (R146). -/
  memTrace : s.chipMem = memAfter s.trace []
  /-- The wires carried whole frames only, those of TRACE in order (R143, R144). -/
  wireTrace : s.wire = wireOf s.cfg.dummy s.trace
  /-- Every transaction is legal (R67, R117, R118, R153). -/
  legal : ∀ t ∈ s.trace, t.Legal
  /-- The segment registers name bytes of one buffer (R21, R194). -/
  segFit : s.segWritten = true → s.seg.seg1l.toNat + s.seg.seg2l.toNat ≤ 2048 ∧ s.seg.seg2a.toNat ≤ s.seg.seg1a.toNat ∧
    s.seg.seg1a.toNat + s.seg.seg1l.toNat ≤ s.seg.seg2a.toNat + 2048 ∧ s.seg.seg2a.toNat + 2048 ≤ 65536

/-- `Addr(i)`: the physical address of byte `i` of a transfer (R195). -/
def ringAddr (p S B i : Nat) : Nat := B + (p + i) % S

/-- The addresses of a list of pieces, piece by piece and rising inside each (R195). -/
def pieceAddrs (ps : List (Nat × Nat)) : List Nat := ps.flatMap fun p => List.range' p.1 p.2

/-- One of the three loops is at a read that may not be the last (R250, R266). -/
abbrev State.InLoop (s : State) : Prop := s.seq = .execPoll ∨ s.seq = .txfreeRead ∨ s.seq = .rxsizeRead

/-- A control byte the raw operations accept, by its bits (R152). -/
abbrev RawCtlOk (wr : Bool) (ctl : Byte) : Prop := ctlReason wr ctl = none

/-- The state of a bus request that its meaning takes the effect from: idle, or a frame that is due. -/
abbrev StartsIn (i : Instr) (s : State) : Prop := i.isRequest = true → s.seq = .idle

/-- The hidden registers of R35, which are dead while `BUSY = 0`, set to given values: sampled operands, `PTR`, `VPREV`, `k`. -/
def State.withHidden (o : Operands) (p v : Word) (n : Nat) (s : State) : State :=
  { s with opnd := o, ptr := p, vprev := v, k := n }

/-- The state without the hidden registers that are dead in it (R35): all four when nothing is in progress; inside a loop the sampled
operands stay, and with TXFREE and RXSIZE so does `VPREV`, which the next turn compares with (R22, R246). -/
def State.forgetDead (t : State) : State :=
  match t.seq with
  | .idle => t.withHidden ⟨0, 0, 0, 0, 0⟩ 0 0 0
  | .execPoll => t.withHidden t.opnd 0 0 0
  | .txfreeRead | .rxsizeRead => t.withHidden t.opnd 0 t.vprev 0
  | .xfer _ _ _ => t

/-- An answer without the hidden registers that are dead in it. -/
def forgetHidden : Result → Result
  | .next t => .next t.forgetDead
  | .fault f => .fault f
  | .refused r => .refused r

/-- `n` turns of RBAT alone. -/
def rbatTurns : Nat → State → Result
  | 0, s => .next s
  | n + 1, s =>
    match rbatTurn s with
    | .next t => rbatTurns n t
    | .fault f => .fault f
    | .refused r => .refused r

end Machine

end Sys2Proof
end

