-- ==== Sys2Proof/Certificates/Slice0/Obligations.lean ====
section
/-! DEFINITION. What is claimed of the model, one statement for each rule or group of rules of the spec. Every statement about a
byte the chip returns holds for whatever it returns (log 2), and every statement holds for each configuration (log 5) unless it
names REFCFG. -/

open Sys2Proof
open Sys2Proof.Machine

/-! ## Encoding -/

/-- 30_encoding R101, R104, R107, R113: decoding the encoding of any instruction gives it back. Frames have the bank codes of REFCFG
here, as the table has them (log 5); FrameHeaderHasOneMeaning says the same of the frames of every configuration. -/
def Obligations.DecodeOfEncodeIsTheInstruction : Prop :=
  ∀ i : Instr, decodeTableWord (encode i).1 (encode i).2 = some i

/-- R103, R106, R107: a request word has at most one meaning, and it is the word of that meaning. -/
def Obligations.RequestWordHasOneMeaning : Prop :=
  ∀ (w : ReqWord) (i : Instr), decodeReq w = .instr i ↔ (i.isRequest = true ∧ encodeReq i = w)

/-- R110, R113 for every configuration: a header has at most one meaning, and it is the header of that frame. -/
def Obligations.FrameHeaderHasOneMeaning : Prop :=
  ∀ (c : Cfg) (h : Header) (i : Instr), c.Ok → (decodeFrame c h = .instr i ↔ encodeFrame c i = some h)

/-- R104 as the table states it, R106: a word decodes exactly when `word & mask = match` for some row, and where it matches no row
an idle RBAT refuses it with reason Reserved. -/
def Obligations.ReservedMeansNoRowMatches : Prop :=
  let rows : List (ReqWord × ReqWord) :=
    [(0x0100000000000000, 0xFFFFFFFFFFFFFFFF), (0x0200000000000000, 0xFF000000FFFFFF00),
     (0x0300000000000000, 0xFF0000000000FFFF), (0x0400000000000000, 0xFF000000FFFFFFFF),
     (0x0500000000000000, 0xFF0000000000FFFF), (0x0600000000000000, 0xFF1F0000FFFFFF00),
     (0x0700000000000000, 0xFF1F0000FFFFFFFF), (0x0800000000000000, 0xFF1F0000FFFF0000),
     (0x0900000000000000, 0xFF1F0000FFFFFFFF), (0x0A00000000000000, 0xFFFF000000000000),
     (0x0B00000000000000, 0xFF1F00000000FFFF), (0x0C00000000000000, 0xFF1FFFFF0000FFFF),
     (0x0D00000000000000, 0xFF1F00000000FFFF), (0x0E00000000000000, 0xFF0FFFFF0000FFFF),
     (0x0F00000000000000, 0xFF1FFFFFFFFFFF00), (0x1000000000000000, 0xFF1FFFFFFFFFFFFF),
     (0x1100000000000000, 0xFF1FFFFFFFFFFFFF)]
  ∀ w : ReqWord,
    ((∃ i, decodeReq w = .instr i) ↔ ∃ r ∈ rows, w &&& r.2 = r.1) ∧
    ((∀ r ∈ rows, w &&& r.2 ≠ r.1) →
      ∀ s : State, s.seq = .idle → s.req = some w → step s = .refused .reserved)

/-- 95_test_vectors 2.1 to 2.3: nine words written out from the spec's encodings decode to what they stand for, at least one of each
family, and three reserved ones to nothing. The frame words are read under REFCFG, and 0x3FFFF8 is F_RD_RXB only under its bank code
`BANK_RX = 0b11` (log 5, PRESUMED: G3). -/
def Obligations.WordsOfTheSpecDecode : Prop :=
  decodeTableWord 64 0x0100000000000000 = some .init ∧
  decodeTableWord 64 0x0304000900040000 = some (.wrn 0x04 0x0009 4) ∧
  decodeTableWord 64 0x08A0002800001234 = some (.snwr2 5 0x0028 0x1234) ∧
  decodeTableWord 64 0x0A0007D000641800 = some (.xlate 2000 100 0x1800) ∧
  decodeTableWord 64 0x0D40FFFE001E0000 = some (.sendofs 2 0xFFFE 30) ∧
  decodeTableWord 64 0x0E30000000640000 = some (.recv 1 true 100) ∧
  decodeTableWord 64 0x0F00000000000020 = some (.execCmd 0 0x20) ∧
  decodeTableWord 24 0x00016C = some (.fWrSreg 0x0001 3) ∧
  decodeTableWord 24 0x3FFFF8 = some (.fRdRxb 0x3FFF 7) ∧
  decodeTableWord 64 0x0B3007D000640000 = none ∧
  decodeTableWord 64 0x1200000000000000 = none ∧
  decodeTableWord 24 0x000001 = none

/-- R111: the control byte is `(s << 5) | (b << 3) | (wr << 2)`, and `GenCtl(wr)` is `wr << 2`. -/
def Obligations.ControlByteIsShiftedFields : Prop :=
  ∀ (s : Sock) (b : Bank) (wr : Bool),
    snCtl s b wr = (s.zeroExtend 8 <<< 5) ||| (b.zeroExtend 8 <<< 3) ||| ((BitVec.ofBool wr).zeroExtend 8 <<< 2) ∧
    genCtl wr = (BitVec.ofBool wr).zeroExtend 8 <<< 2

/-- R61: two chip locations are the same exactly when the control bytes agree in bits [7:3] and the addresses are equal. -/
def Obligations.LocationIsBankAndAddress : Prop :=
  ∀ (c c' : Byte) (a a' : Word),
    locOf c a.toNat = locOf c' a'.toNat ↔ (c >>> 3 = c' >>> 3 ∧ a = a')

/-! ## The step, the host and reset -/

/-- R26, R100, R102, in the model's turn order (log 7): an idle RBAT with a request in REQ runs exactly the instruction the word
decodes to, from the state with REQ taken; the host's turn follows. -/
def Obligations.StepRunsThePendingRequest : Prop :=
  ∀ (s : State) (w : ReqWord) (i : Instr), s.seq = .idle → s.req = some w → decodeReq w = .instr i →
    step s = match exec i { s with req := none } with
      | .next t => hostTurn t
      | .fault f => .fault f
      | .refused r => .refused r

/-- R108, R113, in the model's form (log 8): a due frame runs as exactly the instruction its header decodes to; the host's turn
follows. -/
def Obligations.StepRunsTheDueFrame : Prop :=
  ∀ (s : State) (h : Header) (d : List Byte) (n : Nat) (i : Instr), s.seq = .xfer h d n → decodeFrame s.cfg h = .instr i →
    step s = match exec i s with
      | .next t => hostTurn t
      | .fault f => .fault f
      | .refused r => .refused r

/-- R27, R102 (1), U17: while BUSY = 1 a write of REQ is dropped and nothing changes; while BUSY = 0 it is what RBAT takes next. The
clause that exec of any request with BUSY = 1 leaves the state as it is is the model's (log 11, DEDUCED): it tests BUSY a second time
where a request runs. -/
def Obligations.RequestWhileBusyIsDropped : Prop :=
  ∀ s : State,
    (s.busy = true → (∀ w, s.writeReq w = s) ∧ ∀ i : Instr, i.isRequest = true → exec i s = .next s) ∧
    (s.busy = false → ∀ w, s.writeReq w = { s with req := some w })

/-- Log 9 (model): a request placed by withFetchWord is what RBAT runs in its very next turn. -/
def Obligations.PlacedRequestRunsNext : Prop :=
  ∀ (s : State) (i : Instr), i.isRequest = true →
    rbatTurn (s.withFetchWord 64 (encodeReq i).toNat) = exec i { s with seq := .idle, req := none }

/-- R44: the reset values. `RES` and `SEG*` have no value a host can read; the hidden registers and the chip are not stated. -/
def Obligations.ResetLeavesTheStatedValues : Prop :=
  State.reset.status = 0b001 ∧ State.reset.busy = false ∧ State.reset.csOe = false ∧ State.reset.csn = true ∧
  State.reset.seq = .idle ∧ State.reset.req = none ∧ State.reset.din = [] ∧ State.reset.dout = [] ∧ State.reset.trace = [] ∧
  State.reset.hostRead .res = none ∧ State.reset.hostRead .seg1a = none ∧ State.reset.hostRead .seg1l = none ∧
  State.reset.hostRead .seg2a = none ∧ State.reset.hostRead .seg2l = none

/-- R290, with the model's choice for BUSY = 1 (log 10): a reset between operations puts every piece of RBAT's state at its reset
value, keeping the configuration, the chip's answers to come and the host's acts to come; during an operation there is no step. -/
def Obligations.ResetInputRestoresResetState : Prop :=
  ∀ s : State,
    (s.busy = false → s.hostAct .reset =
      .next { State.reset with cfg := s.cfg, chip := s.chip, drawn := s.drawn, inbox := s.inbox }) ∧
    (s.busy = true → s.hostAct .reset = .refused .resetBusy)

/-! ## Whole-machine rules -/

/-- The reset state meets the invariant. -/
def Obligations.ResetMeetsTheInvariant : Prop := State.reset.Inv

/-- R22, R67, R117, R118, R143, R144, R145, R153, R194, R292 and the canonical form of the chip space: from EVERY state that meets
the invariant, a step that gives a next state gives one that meets it. -/
def Obligations.StepKeepsTheInvariant : Prop :=
  ∀ s t : State, s.Inv → step s = .next t → t.Inv

/-- R260, R145: from a state that meets the invariant no step faults: no transaction ever finds chip-select low. -/
def Obligations.NoStepFaults : Prop :=
  ∀ (s : State) (f : Fault), s.Inv → step s ≠ .fault f

/-- R266: in a loop RBAT is never stuck; from every such state that meets the invariant it has a next turn, it stays in the same
loop or ends, and only a read was made. -/
def Obligations.LoopAlwaysHasANextTurn : Prop :=
  ∀ s : State, s.Inv → s.InLoop →
    ∃ (t : State) (x : Txn), rbatTurn s = .next t ∧ (t.seq = s.seq ∨ t.seq = .idle) ∧ t.trace = s.trace ++ [x] ∧
      x.isWrite = false ∧ t.chipMem = s.chipMem

/-- R30, R43: no step changes the configuration. -/
def Obligations.ConfigurationNeverChanges : Prop :=
  ∀ s t : State, step s = .next t → t.cfg = s.cfg

/-- R34, R143, R144: what a turn of RBAT adds to the wires is the whole frames of the transactions it adds to TRACE, in order: one
fall and one rise of chip-select for each, and no byte of one frame inside another. -/
def Obligations.TurnPutsWholeFramesOnTheWires : Prop :=
  ∀ s t : State, rbatTurn s = .next t →
    ∃ ts : List Txn, t.trace = s.trace ++ ts ∧
      t.wire = s.wire ++ ts.flatMap (fun x =>
        [Wire.fall, .out (BitVec.ofNat 8 (x.addr.toNat / 256)), .out (BitVec.ofNat 8 (x.addr.toNat % 256)), .out x.ctl] ++
        (if x.isWrite then x.data.map Wire.out else List.replicate x.data.length (.out s.cfg.dummy)) ++ [.rise]) ∧
      t.chipMem = memAfter ts s.chipMem

/-- R113: every transaction of RBAT's own sequences, that is, of every operation but the four raw ones, has one of the six header
kinds; a write transaction has a write kind. The second clause says it of every further poll of EXEC and read of TXFREE and RXSIZE. -/
def Obligations.OwnFramesAreOfTheSixKinds : Prop :=
  (∀ (i : Instr) (s t : State) (ts : List Txn), s.cfg.Ok → i.rawCtl = none → exec i s = .next t → t.trace = s.trace ++ ts →
    ∀ x ∈ ts, ∃ f : Instr, decodeFrame s.cfg (joinHeader x.addr x.ctl) = .instr f ∧ f.isRequest = false ∧
      ctlWrite x.ctl = x.isWrite) ∧
  (∀ (s t : State) (ts : List Txn), s.cfg.Ok → s.InLoop → rbatTurn s = .next t → t.trace = s.trace ++ ts →
    ∀ x ∈ ts, ∃ f : Instr, decodeFrame s.cfg (joinHeader x.addr x.ctl) = .instr f ∧ f.isRequest = false ∧
      ctlWrite x.ctl = x.isWrite)

/-- R69: the number, direction and data length of the transactions of every operation; a loop adds one read of one byte (EXEC) or
two bytes (TXFREE, RXSIZE) at each further turn. -/
def Obligations.TransactionsAreCountedByTheTable : Prop :=
  (∀ (i : Instr) (s t : State), StartsIn i s → exec i s = .next t →
    ∃ ts : List Txn, t.trace = s.trace ++ ts ∧ ts.map (fun x => (x.isWrite, x.data.length)) = shapeOf i s) ∧
  (∀ s t : State, s.InLoop → rbatTurn s = .next t →
    ∃ x : Txn, t.trace = s.trace ++ [x] ∧ x.isWrite = false ∧ x.data.length = if s.seq = .execPoll then 1 else 2)

/-- R264, with R152, R176, R197, R211, R241 (and the model's frame tests, log 12): a decoded instruction is refused exactly when a
reason applies, and then with the first reason in the order of R264; when none applies and chip-select is high it runs. -/
def Obligations.FirstReasonIsReported : Prop :=
  ∀ (i : Instr) (s : State), StartsIn i s →
    (∀ r, exec i s = .refused r ↔ expectedRefusal i s = some r) ∧
    (expectedRefusal i s = none → s.csn = true → ∃ t, exec i s = .next t)

/-- R35: no operation reads a hidden value left by an earlier operation: with other values in the sampled operands, PTR, VPREV and k
it answers the same. What is live in the answer is kept in the comparison: inside a loop the sampled operands, and with TXFREE and
RXSIZE also VPREV. The second clause says of a turn inside a loop that PTR, k and, with EXEC, VPREV are not read. -/
def Obligations.HiddenStateIsDeadWhenIdle : Prop :=
  (∀ (i : Instr) (s : State) (o : Operands) (p v : Word) (n : Nat), StartsIn i s →
    forgetHidden (exec i (s.withHidden o p v n)) = forgetHidden (exec i s)) ∧
  (∀ (s : State) (p v : Word) (n : Nat), s.InLoop →
    forgetHidden (rbatTurn (s.withHidden s.opnd p (if s.seq = .execPoll then v else s.vprev) n)) = forgetHidden (rbatTurn s))

/-! ## Frames: what an instruction leaves alone -/

/-- R23, R25: RES is written by RD1, SNRD1, SNRD2, WRN, RDN, SENDOFS, TXFREE and RXSIZE only. A further turn of a loop leaves it alone
but for the one that ends TXFREE or RXSIZE. -/
def Obligations.ResIsLeftAlone : Prop :=
  (∀ (i : Instr) (s t : State), i.writesRes = false → exec i s = .next t → t.res = s.res ∧ t.resWritten = s.resWritten) ∧
  (∀ s t : State, s.InLoop → rbatTurn s = .next t → (s.seq = .execPoll ∨ t.seq ≠ .idle) →
    t.res = s.res ∧ t.resWritten = s.resWritten)

/-- R24, R25: the four SEG registers are written by XLATE, RDDATA, SEND, SENDOFS and RECV only; no further turn of a loop writes
them. -/
def Obligations.SegmentRegistersAreLeftAlone : Prop :=
  (∀ (i : Instr) (s t : State), i.writesSegs = false → exec i s = .next t → t.seg = s.seg ∧ t.segWritten = s.segWritten) ∧
  (∀ s t : State, s.InLoop → rbatTurn s = .next t → t.seg = s.seg ∧ t.segWritten = s.segWritten)

/-- R25, R29, R43: what else an instruction leaves alone: the configuration, REQ and the host's acts always; CS_OE and CSN but for
INIT. That PTR but for SEND and RECV, VPREV but for TXFREE and RXSIZE, k but for SEND and SENDOFS, and the sampled operands in a frame
keep their values is the model's (log 4): R35 says only that they are dead while BUSY = 0. The second clause says the same of a further
turn of a loop, where the sampled operands are live and stay (R22, R35). -/
def Obligations.OtherRegistersAreLeftAlone : Prop :=
  (∀ (i : Instr) (s t : State), exec i s = .next t →
    t.cfg = s.cfg ∧ t.req = s.req ∧ t.inbox = s.inbox ∧
    (i ≠ .init → t.csOe = s.csOe ∧ t.csn = s.csn) ∧
    ((∀ sk n, i ≠ .send sk n) → (∀ sk p n, i ≠ .recv sk p n) → t.ptr = s.ptr) ∧
    ((∀ sk, i ≠ .txfree sk) → (∀ sk, i ≠ .rxsize sk) → t.vprev = s.vprev) ∧
    ((∀ sk n, i ≠ .send sk n) → (∀ sk o n, i ≠ .sendofs sk o n) → t.k = s.k) ∧
    (i.isRequest = false → t.opnd = s.opnd)) ∧
  (∀ s t : State, s.InLoop → rbatTurn s = .next t →
    t.cfg = s.cfg ∧ t.req = s.req ∧ t.inbox = s.inbox ∧ t.csOe = s.csOe ∧ t.csn = s.csn ∧ t.opnd = s.opnd ∧ t.ptr = s.ptr ∧
    t.k = s.k ∧ (s.seq = .execPoll → t.vprev = s.vprev))

/-- R25, R32, R33: WRN, SEND and SENDOFS take exactly LEN bytes from the front of DIN; RDN, RDDATA and RECV append exactly LEN bytes
to DOUT; nothing else RBAT does touches the streams, a further turn of a loop included. The host's side, at the host's turn (log 7):
its bytes go to the end of DIN, and it takes bytes from the front of DOUT. -/
def Obligations.StreamsMoveExactlyLen : Prop :=
  (∀ (i : Instr) (s t : State), StartsIn i s → exec i s = .next t →
    t.din = s.din.drop i.takesDin ∧ ∃ d : List Byte, t.dout = s.dout ++ d ∧ d.length = i.putsDout) ∧
  (∀ s t : State, s.InLoop → rbatTurn s = .next t → t.din = s.din ∧ t.dout = s.dout) ∧
  (∀ (s : State) (d : List Byte) (rest : List HostAct), s.inbox = .putDin d :: rest →
    hostTurn s = .next { s with inbox := rest, din := s.din ++ d }) ∧
  (∀ (s : State) (n : Nat) (rest : List HostAct), s.inbox = .takeDout n :: rest →
    hostTurn s = .next { s with inbox := rest, dout := s.dout.drop n })

/-- R66, R146, R213: every chip location outside the runs an instruction stores to reads as before; the runs are computed with the
functions the meanings use. A further turn of a loop stores nothing. -/
def Obligations.OtherChipLocationsAreLeftAlone : Prop :=
  (∀ (i : Instr) (s t : State), s.cfg.Ok → exec i s = .next t →
    ∀ a : Nat, (∀ r ∈ storedRuns i s, Run.misses r a) → Memory.read a t.chipMem = Memory.read a s.chipMem) ∧
  (∀ s t : State, s.InLoop → rbatTurn s = .next t → ∀ a : Nat, Memory.read a t.chipMem = Memory.read a s.chipMem)

/-! ## The bus procedures -/

/-- R146: BusWrite: fall, address high and low byte, control byte, the data in order, rise; the chip location `(ctl[7:3], addr + i)`
receives byte `i`; one entry in TRACE; nothing else changes. -/
def Obligations.BusWriteSendsOneFrame : Prop :=
  ∀ (addr : Word) (ctl : Byte) (d : List Byte) (s : State), 1 ≤ d.length → addr.toNat + d.length ≤ 65536 → s.csOe = true →
    s.csn = true →
    ∃ m : Memory,
      busWrite addr ctl d s = { s with
        wire := s.wire ++ ([.fall, .out (BitVec.ofNat 8 (addr.toNat / 256)), .out (BitVec.ofNat 8 (addr.toNat % 256)), .out ctl] ++
          d.map Wire.out ++ [.rise])
        trace := s.trace ++ [.w addr ctl d]
        chipMem := m } ∧
      (∀ (i : Nat) (h : i < d.length), Memory.read ((ctl.toNat / 8) * 65536 + addr.toNat + i) m = some d[i]) ∧
      (∀ a : Nat, Run.misses ((ctl.toNat / 8) * 65536 + addr.toNat, d.length) a → Memory.read a m = Memory.read a s.chipMem)

/-- R147: BusRead: fall, address high and low byte, control byte, DUMMY once for each byte read, rise; the bytes are what the chip
returns (free values); one entry in TRACE; nothing else changes. -/
def Obligations.BusReadReceivesOneFrame : Prop :=
  ∀ (addr : Word) (ctl : Byte) (n : Nat) (s : State), 1 ≤ n → addr.toNat + n ≤ 65536 → s.csOe = true → s.csn = true →
    (busRead addr ctl n s).1.length = n ∧ (busRead addr ctl n s).1 = s.nextBytes n ∧
    (busRead addr ctl n s).2 = { s.drew n with
      wire := s.wire ++ ([.fall, .out (BitVec.ofNat 8 (addr.toNat / 256)), .out (BitVec.ofNat 8 (addr.toNat % 256)), .out ctl] ++
        List.replicate n (.out s.cfg.dummy) ++ [.rise])
      trace := s.trace ++ [.r addr ctl (busRead addr ctl n s).1] }

/-! ## INIT and the raw operations -/

/-- R142: INIT sets CSN and CS_OE to 1 and changes nothing else but the sampled operands; a second INIT changes nothing a host can
see; before it, every operation with a transaction is refused with NotInit (R292), and so is a due frame, which is the model's (log 12,
DEDUCED); STATUS is 0b001 after reset and 0b011 after INIT. -/
def Obligations.InitDrivesChipSelectHigh : Prop :=
  (∀ s : State, s.seq = .idle → exec .init s = .next { s with csn := true, csOe := true, opnd := ⟨0x01, 0, 0, 0, 0⟩ }) ∧
  (∀ (i : Instr) (s : State), i.usesBus = true → s.csOe = false → StartsIn i s → exec i s = .refused .notInit) ∧
  State.reset.status = 0b001 ∧ (∀ t, exec .init State.reset = .next t → t.status = 0b011)

/-- R148: WR1 is BusWrite(ADDR, CTL, [DAT]); RES is left alone. -/
def Obligations.Wr1WritesOneByte : Prop :=
  ∀ (ctl : Byte) (addr : Word) (dat : Byte) (s : State), s.Ready → RawCtlOk true ctl →
    exec (.wr1 ctl addr dat) s = .next { s.did [.w addr ctl [dat]] with opnd := fieldsOf (.wr1 ctl addr dat) }

/-- R149: WRN takes LEN bytes from DIN, writes them in one transaction, and RES is LEN. -/
def Obligations.WrnWritesARun : Prop :=
  ∀ (ctl : Byte) (addr len : Word) (s : State), s.Ready → RawCtlOk true ctl → 1 ≤ len.toNat →
    addr.toNat + len.toNat ≤ 65536 → len.toNat ≤ s.din.length →
    exec (.wrn ctl addr len) s = .next { s.did [.w addr ctl (s.din.take len.toNat)] with
      opnd := fieldsOf (.wrn ctl addr len)
      din := s.din.drop len.toNat
      res := len
      resWritten := true }

/-- R150: RD1 reads one byte, whatever the chip returns, zero-extended into RES. -/
def Obligations.Rd1ReadsOneByte : Prop :=
  ∀ (ctl : Byte) (addr : Word) (s : State), s.Ready → RawCtlOk false ctl →
    ∃ b : Byte, s.nextBytes 1 = [b] ∧
      exec (.rd1 ctl addr) s = .next { (s.drew 1).did [.r addr ctl [b]] with
        opnd := fieldsOf (.rd1 ctl addr)
        res := 0#8 ++ b
        resWritten := true }

/-- R151: RDN reads LEN bytes in one transaction, appends them to DOUT, and RES is LEN. -/
def Obligations.RdnReadsARun : Prop :=
  ∀ (ctl : Byte) (addr len : Word) (s : State), s.Ready → RawCtlOk false ctl → 1 ≤ len.toNat →
    addr.toNat + len.toNat ≤ 65536 →
    exec (.rdn ctl addr len) s = .next { (s.drew len.toNat).did [.r addr ctl (s.nextBytes len.toNat)] with
      opnd := fieldsOf (.rdn ctl addr len)
      dout := s.dout ++ s.nextBytes len.toNat
      res := len
      resWritten := true }

/-! ## The socket register accessor -/

/-- R171, R172, R174: SNWR1 and SNWR2 are one write transaction at `SREG_BASE(s) + off` with control byte `(s << 5) + 0x0C`, the
16-bit value high byte first; RES is left alone. -/
def Obligations.SocketRegisterWrites : Prop :=
  ∀ (sock : Sock) (off : Word) (s : State), s.Ready →
    (∀ dat : Byte, (s.cfg.sregBase sock).toNat + off.toNat + 1 ≤ 65536 →
      exec (.snwr1 sock off dat) s = .next { s.did [.w (s.cfg.sregBase sock + off) ((sock.zeroExtend 8 <<< 5) + 0x0C) [dat]] with
        opnd := fieldsOf (.snwr1 sock off dat) }) ∧
    (∀ dat : Word, (s.cfg.sregBase sock).toNat + off.toNat + 2 ≤ 65536 →
      exec (.snwr2 sock off dat) s = .next { s.did [.w (s.cfg.sregBase sock + off) ((sock.zeroExtend 8 <<< 5) + 0x0C)
          [BitVec.ofNat 8 (dat.toNat / 256), BitVec.ofNat 8 (dat.toNat % 256)]] with
        opnd := fieldsOf (.snwr2 sock off dat) })

/-- R171, R173, R175: SNRD1 and SNRD2 are one read transaction at `SREG_BASE(s) + off` with control byte `(s << 5) + 0x08`; RES is
the byte zero-extended, or the two bytes high byte first. -/
def Obligations.SocketRegisterReads : Prop :=
  ∀ (sock : Sock) (off : Word) (s : State), s.Ready →
    ((s.cfg.sregBase sock).toNat + off.toNat + 1 ≤ 65536 →
      ∃ b : Byte, s.nextBytes 1 = [b] ∧
        exec (.snrd1 sock off) s =
          .next { (s.drew 1).did [.r (s.cfg.sregBase sock + off) ((sock.zeroExtend 8 <<< 5) + 0x08) [b]] with
            opnd := fieldsOf (.snrd1 sock off)
            res := 0#8 ++ b
            resWritten := true }) ∧
    ((s.cfg.sregBase sock).toNat + off.toNat + 2 ≤ 65536 →
      ∃ h l : Byte, s.nextBytes 2 = [h, l] ∧
        exec (.snrd2 sock off) s =
          .next { (s.drew 2).did [.r (s.cfg.sregBase sock + off) ((sock.zeroExtend 8 <<< 5) + 0x08) [h, l]] with
            opnd := fieldsOf (.snrd2 sock off)
            res := h ++ l
            resWritten := true })

/-! ## The ring translator -/

/-- R194: no piece leaves `[B, B + S)`. -/
def Obligations.TranslationStaysInTheBuffer : Prop :=
  ∀ p n S B : Nat, 0 < S → n ≤ S → ∀ q ∈ xlate p n S B, B ≤ q.1 ∧ q.1 + q.2 ≤ B + S

/-- R195: the addresses of the pieces are exactly `Addr(0), …, Addr(n-1)` in that order; the lengths sum to n; there are two pieces
exactly when `(p mod S) + n > S`, neither of them empty and sharing no address; for `n >= 1` no piece is empty; for `n = 0` there is
the single empty piece at `B + (p mod S)`. -/
def Obligations.TranslationIsExact : Prop :=
  ∀ p n S B : Nat, 0 < S → n ≤ S →
    pieceAddrs (xlate p n S B) = (List.range n).map (ringAddr p S B) ∧
    ((xlate p n S B).map Prod.snd).sum = n ∧
    (xlate p n S B).length = (if p % S + n > S then 2 else 1) ∧
    (p % S + n > S → ∃ x y : Nat × Nat, xlate p n S B = [x, y] ∧ x.1 = B + p % S ∧ x.1 + x.2 = B + S ∧ y.1 = B ∧
      1 ≤ x.2 ∧ 1 ≤ y.2 ∧ y.1 + y.2 ≤ x.1) ∧
    (1 ≤ n → ∀ q ∈ xlate p n S B, 1 ≤ q.2) ∧
    (n = 0 → xlate p n S B = [(B + p % S, 0)])

/-- R196: the translation depends on the pointer only through `p mod S`; for S dividing 65536 a pointer advanced with 16-bit
wraparound keeps its place in the buffer, so a second transfer at the advanced pointer continues where the first stopped. -/
def Obligations.AdvancedPointerContinuesTheTransfer : Prop :=
  ∀ p n m S B : Nat, 0 < S → S ∣ 65536 →
    xlate p n S B = xlate (p % S) n S B ∧
    ((p + n) % 65536) % S = (p % S + n) % S ∧
    xlate ((p + n) % 65536) m S B = xlate (p + n) m S B ∧
    ∀ i : Nat, ringAddr ((p + n) % 65536) S B i = ringAddr p S B (n + i)

/-- R198: with S = 2048 the offset is the low 11 bits of the pointer, the comparison is `o + n > 2048`, and the lengths are
`2048 - o` and `o + n - 2048`. -/
def Obligations.TranslationNeedsNoDivider : Prop :=
  ∀ (p : Word) (n B : Nat),
    xlate p.toNat n 2048 B =
      if (p.extractLsb' 0 11).toNat + n > 2048 then
        [(B + (p.extractLsb' 0 11).toNat, 2048 - (p.extractLsb' 0 11).toNat), (B, (p.extractLsb' 0 11).toNat + n - 2048)]
      else [(B + (p.extractLsb' 0 11).toNat, n)]

/-- R197: XLATE writes SEG1A, SEG1L, SEG2A (always B) and SEG2L (0 when there is no second piece), changes nothing else but the
sampled operands, does not test CS_OE, and refuses LenRange before BaseRange. -/
def Obligations.XlateWritesTheSegments : Prop :=
  ∀ (p n base : Word) (s : State), s.seq = .idle →
    (n.toNat ≤ 2048 → base.toNat + 2048 ≤ 65536 →
      exec (.xlate p n base) s = .next { s with
        opnd := fieldsOf (.xlate p n base)
        segWritten := true
        seg := if p.toNat % 2048 + n.toNat > 2048 then
            ⟨base + BitVec.ofNat 16 (p.toNat % 2048), BitVec.ofNat 16 (2048 - p.toNat % 2048), base,
              BitVec.ofNat 16 (p.toNat % 2048 + n.toNat - 2048)⟩
          else ⟨base + BitVec.ofNat 16 (p.toNat % 2048), n, base, 0⟩ }) ∧
    (2048 < n.toNat → exec (.xlate p n base) s = .refused .lenRange) ∧
    (n.toNat ≤ 2048 → 65536 < base.toNat + 2048 → exec (.xlate p n base) s = .refused .baseRange)

/-! ## The transfers -/

/-- R212, R213, R214: RDDATA: one or two read transactions of the receive bank at the pieces of the translation, tail piece first;
LEN bytes to DOUT; the segment registers; no register transaction and nothing else changed. -/
def Obligations.RddataReadsTheRing : Prop :=
  ∀ (sock : Sock) (src len : Word) (s : State), s.Ready → 1 ≤ len.toNat → len.toNat ≤ 2048 →
    exec (.rddata sock src len) s = .next
      { (s.drew len.toNat).did (readTxns (snCtl sock s.cfg.bankRx false)
          (xlate src.toNat len.toNat 2048 (s.cfg.rxBase sock).toNat) (s.nextBytes len.toNat)) with
        opnd := fieldsOf (.rddata sock src len)
        dout := s.dout ++ s.nextBytes len.toNat
        seg := segsOf (xlate src.toNat len.toNat 2048 (s.cfg.rxBase sock).toNat) (s.cfg.rxBase sock)
        segWritten := true }

/-- R213, R216, R217, R218: SEND: one read of TX_WR, whatever the chip returns, the data at the pieces of the translation of that
pointer, and the pointer plus LEN with 16-bit wraparound written back; RES is left alone. -/
def Obligations.SendStagesAndWritesBack : Prop :=
  ∀ (sock : Sock) (len : Word) (s : State), s.Ready → 1 ≤ len.toNat → len.toNat ≤ 2048 → len.toNat ≤ s.din.length →
    ∃ h l : Byte, s.nextBytes 2 = [h, l] ∧
      exec (.send sock len) s = .next
        { (s.drew 2).did
            ([.r (s.cfg.sregBase sock + s.cfg.offTxWr) (snCtl sock 0b01 false) [h, l]] ++
              writeTxns (snCtl sock s.cfg.bankTx true)
                (xlate (h ++ l : Word).toNat len.toNat 2048 (s.cfg.txBase sock).toNat) (s.din.take len.toNat) ++
              [.w (s.cfg.sregBase sock + s.cfg.offTxWr) (snCtl sock 0b01 true) (bytesOfWord ((h ++ l : Word) + len))]) with
          opnd := fieldsOf (.send sock len)
          din := s.din.drop len.toNat
          seg := segsOf (xlate (h ++ l : Word).toNat len.toNat 2048 (s.cfg.txBase sock).toNat) (s.cfg.txBase sock)
          segWritten := true
          ptr := h ++ l
          k := len.toNat }

/-- R213, R217, R220, R221: SENDOFS: the data at the pieces of the translation of the host's absolute offset, no register
transaction; RES is the offset plus LEN with 16-bit wraparound. -/
def Obligations.SendofsStagesAtTheOffset : Prop :=
  ∀ (sock : Sock) (offset len : Word) (s : State), s.Ready → 1 ≤ len.toNat → len.toNat ≤ 2048 → len.toNat ≤ s.din.length →
    exec (.sendofs sock offset len) s = .next
      { s.did (writeTxns (snCtl sock s.cfg.bankTx true)
          (xlate offset.toNat len.toNat 2048 (s.cfg.txBase sock).toNat) (s.din.take len.toNat)) with
        opnd := fieldsOf (.sendofs sock offset len)
        din := s.din.drop len.toNat
        seg := segsOf (xlate offset.toNat len.toNat 2048 (s.cfg.txBase sock).toNat) (s.cfg.txBase sock)
        segWritten := true
        k := len.toNat
        res := BitVec.ofNat 16 ((offset.toNat + len.toNat) % 65536)
        resWritten := true }

/-- R213, R217, R218, R226: RECV: one read of RX_RD, the data at the pieces of the translation of that pointer to DOUT, and, exactly
when PEEK = 0, the pointer plus LEN with 16-bit wraparound written back; RES is left alone. -/
def Obligations.RecvDrainsOrPeeks : Prop :=
  ∀ (sock : Sock) (peek : Bool) (len : Word) (s : State), s.Ready → 1 ≤ len.toNat → len.toNat ≤ 2048 →
    ∃ (h l : Byte) (d : List Byte), s.nextBytes (2 + len.toNat) = h :: l :: d ∧
      exec (.recv sock peek len) s = .next
        { (s.drew (2 + len.toNat)).did
            ([.r (s.cfg.sregBase sock + s.cfg.offRxRd) (snCtl sock 0b01 false) [h, l]] ++
              readTxns (snCtl sock s.cfg.bankRx false)
                (xlate (h ++ l : Word).toNat len.toNat 2048 (s.cfg.rxBase sock).toNat) d ++
              (if peek then []
               else [.w (s.cfg.sregBase sock + s.cfg.offRxRd) (snCtl sock 0b01 true) (bytesOfWord ((h ++ l : Word) + len))])) with
          opnd := fieldsOf (.recv sock peek len)
          dout := s.dout ++ d
          seg := segsOf (xlate (h ++ l : Word).toNat len.toNat 2048 (s.cfg.rxBase sock).toNat) (s.cfg.rxBase sock)
          segWritten := true
          ptr := h ++ l }

/-- R195, R213, R221: byte `i` of the data SENDOFS takes is delivered to `TX_BASE + ((offset + i) mod 2048)` of the socket's TX bank,
and every other chip location is left alone. -/
def Obligations.StagedBytesLandInRingOrder : Prop :=
  ∀ (sock : Sock) (offset len : Word) (s : State), s.cfg.Ok → s.Ready → 1 ≤ len.toNat → len.toNat ≤ 2048 →
    len.toNat ≤ s.din.length →
    ∃ t : State, exec (.sendofs sock offset len) s = .next t ∧
      (∀ i : Nat, i < len.toNat →
        Memory.read (locOf (snCtl sock s.cfg.bankTx true) (ringAddr offset.toNat 2048 (s.cfg.txBase sock).toNat i)) t.chipMem =
          s.din[i]?) ∧
      (∀ a : Nat,
        (∀ i : Nat, i < len.toNat →
          a ≠ locOf (snCtl sock s.cfg.bankTx true) (ringAddr offset.toNat 2048 (s.cfg.txBase sock).toNat i)) →
        Memory.read a t.chipMem = Memory.read a s.chipMem)

/-- R222, R223: three SENDOFS calls that thread the returned offset place their bytes contiguously in the ring from the first offset
on, return the running offset each time, and make no register transaction (the source's scenario is lengths 10, 20, 30). -/
def Obligations.ThreadedOffsetsAssembleOneUnit : Prop :=
  ∀ (sock : Sock) (w0 a b c : Word) (s : State), s.cfg.Ok → s.Ready → 1 ≤ a.toNat → 1 ≤ b.toNat → 1 ≤ c.toNat →
    a.toNat + b.toNat + c.toNat ≤ 2048 → a.toNat + b.toNat + c.toNat ≤ s.din.length →
    ∃ t1 t2 t3 : State,
      exec (.sendofs sock w0 a) s = .next t1 ∧ t1.res = w0 + a ∧
      exec (.sendofs sock t1.res b) t1 = .next t2 ∧ t2.res = w0 + a + b ∧
      exec (.sendofs sock t2.res c) t2 = .next t3 ∧ t3.res = w0 + a + b + c ∧
      (∀ i : Nat, i < a.toNat + b.toNat + c.toNat →
        Memory.read (locOf (snCtl sock s.cfg.bankTx true) (ringAddr w0.toNat 2048 (s.cfg.txBase sock).toNat i)) t3.chipMem =
          s.din[i]?) ∧
      ∃ ts : List Txn, t3.trace = s.trace ++ ts ∧ ∀ x ∈ ts, x.ctl = snCtl sock s.cfg.bankTx true

/-- R227: a peek writes nothing to the chip, and the drain that follows it, if the chip answers the same bytes, puts the same bytes
on DOUT and then writes the pointer advanced by exactly LEN. -/
def Obligations.PeekThenDrainGivesTheSameBytes : Prop :=
  ∀ (sock : Sock) (len : Word) (s : State), s.Ready → 1 ≤ len.toNat → len.toNat ≤ 2048 →
    ∃ t u : State, ∃ d : List Byte, ∃ ts : List Txn,
      exec (.recv sock true len) s = .next t ∧ exec (.recv sock false len) t = .next u ∧
      t.dout = s.dout ++ d ∧ d.length = len.toNat ∧ t.chipMem = s.chipMem ∧
      t.trace = s.trace ++ ts ∧ (∀ x ∈ ts, x.isWrite = false) ∧
      (t.nextBytes (2 + len.toNat) = s.nextBytes (2 + len.toNat) →
        u.dout = t.dout ++ d ∧
        u.trace = t.trace ++ ts ++ [.w (s.cfg.sregBase sock + s.cfg.offRxRd) (wrCtl sock) (bytesOfWord (t.ptr + len))])

/-- R228: RECV.P is RDDATA at the pointer the chip supplies, after the one read of RX_RD that yields it. -/
def Obligations.PeekIsRddataAtTheChipsPointer : Prop :=
  ∀ (sock : Sock) (len : Word) (s t : State), s.Ready → exec (.recv sock true len) s = .next t →
    ∃ u : State,
      exec (.rddata sock t.ptr len)
        ((s.drew 2).did [.r (s.cfg.sregBase sock + s.cfg.offRxRd) (rdCtl sock) (bytesOfWord t.ptr)]) = .next u ∧
      u.trace = t.trace ∧ u.dout = t.dout ∧ u.seg = t.seg ∧ u.wire = t.wire ∧ u.chipMem = t.chipMem

/-- R229: the round trip, under the premise it needs: the two banks of the socket have one base, and the chip answers the reads of
RDDATA with the bytes SEND delivered to the TX bank. Then RDDATA at the pointer SEND used gives back the bytes sent. -/
def Obligations.RoundTripUnderLoopback : Prop :=
  ∀ (sock : Sock) (len : Word) (s t : State), s.cfg.Ok → s.Ready → 1 ≤ len.toNat → len.toNat ≤ 2048 →
    len.toNat ≤ s.din.length → s.cfg.txBase sock = s.cfg.rxBase sock → exec (.send sock len) s = .next t →
    (∀ i : Nat, i < len.toNat → (t.nextBytes len.toNat)[i]? =
      Memory.read (locOf (snCtl sock s.cfg.bankTx true) (ringAddr t.ptr.toNat 2048 (s.cfg.rxBase sock).toNat i)) t.chipMem) →
    ∃ u : State, exec (.rddata sock t.ptr len) t = .next u ∧ u.dout = s.dout ++ s.din.take len.toNat

/-! ## Commands and sizes -/

/-- R242, R244: EXEC writes the command and polls once; a poll of 0 ends it, any other value leaves RBAT at POLL with BUSY = 1; RES
is left alone. -/
def Obligations.ExecWritesThenPolls : Prop :=
  ∀ (sock : Sock) (cmd : Byte) (s : State), s.Ready →
    ∃ b : Byte, s.nextBytes 1 = [b] ∧
      exec (.execCmd sock cmd) s = .next
        { (s.drew 1).did [.w (s.cfg.sregBase sock + s.cfg.offCr) (snCtl sock 0b01 true) [cmd],
            .r (s.cfg.sregBase sock + s.cfg.offCr) (snCtl sock 0b01 false) [b]] with
          opnd := fieldsOf (.execCmd sock cmd)
          seq := if b = 0 then .idle else .execPoll }

/-- R242, R252: EXEC ends exactly at the first poll that reads 0, after one transaction for each poll; it ran the command's write
once, and RES is left alone. -/
def Obligations.ExecEndsAtTheFirstZeroPoll : Prop :=
  ∀ (sock : Sock) (cmd : Byte) (polls : List Byte) (s : State), s.Ready → (∀ b ∈ polls, b ≠ 0) →
    s.nextBytes (polls.length + 1) = polls ++ [0] →
    ∃ t u : State, exec (.execCmd sock cmd) s = .next t ∧ rbatTurns polls.length t = .next u ∧ u.seq = .idle ∧ u.res = s.res ∧
      u.trace = s.trace ++ [.w (s.cfg.sregBase sock + s.cfg.offCr) (wrCtl sock) [cmd]] ++
        (polls ++ [0]).map (fun b => .r (s.cfg.sregBase sock + s.cfg.offCr) (rdCtl sock) [b])

/-- R252, R266: a chip that never clears the command register is polled without end: however many polls have read a value other
than 0, BUSY is 1, chip-select is high, and nothing but the write of the command and the polls has happened: the state is the one EXEC
started in with those transactions done, those bytes answered, the operands sampled and SEQ at POLL. -/
def Obligations.ExecNeverEndsOnASilentChip : Prop :=
  ∀ (sock : Sock) (cmd : Byte) (n : Nat) (s : State), s.Ready → (∀ b ∈ s.nextBytes (n + 1), b ≠ 0) →
    ∃ t u : State, exec (.execCmd sock cmd) s = .next t ∧ rbatTurns n t = .next u ∧ u.busy = true ∧ u.csn = true ∧
      u = { (s.drew (n + 1)).did (.w (s.cfg.sregBase sock + s.cfg.offCr) (wrCtl sock) [cmd] ::
          (s.nextBytes (n + 1)).map (fun b => .r (s.cfg.sregBase sock + s.cfg.offCr) (rdCtl sock) [b])) with
        opnd := fieldsOf (.execCmd sock cmd)
        seq := .execPoll }

/-- R245, R246, R249: TXFREE and RXSIZE read their register twice; equal values end the operation with RES that value; else VPREV is
the second value and RBAT goes on with BUSY = 1. -/
def Obligations.SizeReadsCompareTwoReads : Prop :=
  ∀ (sock : Sock) (s : State), s.Ready →
    ∃ h l h' l' : Byte, s.nextBytes 4 = [h, l, h', l'] ∧
      exec (.txfree sock) s = .next
        (let t := (s.drew 4).did [.r (s.cfg.sregBase sock + s.cfg.offTxFsr) (snCtl sock 0b01 false) [h, l],
            .r (s.cfg.sregBase sock + s.cfg.offTxFsr) (snCtl sock 0b01 false) [h', l']]
         if h = h' ∧ l = l' then
           { t with opnd := fieldsOf (.txfree sock), vprev := h ++ l, res := h' ++ l', resWritten := true, seq := .idle }
         else { t with opnd := fieldsOf (.txfree sock), vprev := h' ++ l', seq := .txfreeRead }) ∧
      exec (.rxsize sock) s = .next
        (let t := (s.drew 4).did [.r (s.cfg.sregBase sock + s.cfg.offRxRsr) (snCtl sock 0b01 false) [h, l],
            .r (s.cfg.sregBase sock + s.cfg.offRxRsr) (snCtl sock 0b01 false) [h', l']]
         if h = h' ∧ l = l' then
           { t with opnd := fieldsOf (.rxsize sock), vprev := h ++ l, res := h' ++ l', resWritten := true, seq := .idle }
         else { t with opnd := fieldsOf (.rxsize sock), vprev := h' ++ l', seq := .rxsizeRead })

/-- R246, R247, R252: the sliding compare of TXFREE and RXSIZE: reads `r1, …, rm` no two neighbours of which are equal, then a read
equal to the last of them: exactly those reads are made, and RES is that value. -/
def Obligations.SizeReadEndsAtTwoEqualReads : Prop :=
  ∀ (sock : Sock) (rs : List Word) (v : Word) (s : State), s.Ready → rs.getLast? = some v →
    (∀ i : Nat, i + 1 < rs.length → rs[i]? ≠ rs[i + 1]?) →
    s.nextBytes (2 * (rs.length + 1)) = (rs ++ [v]).flatMap bytesOfWord →
    (∃ t u : State, exec (.txfree sock) s = .next t ∧ rbatTurns (rs.length - 1) t = .next u ∧ u.seq = .idle ∧ u.res = v ∧
      u.trace = s.trace ++
        (rs ++ [v]).map (fun r => .r (s.cfg.sregBase sock + s.cfg.offTxFsr) (rdCtl sock) (bytesOfWord r))) ∧
    (∃ t u : State, exec (.rxsize sock) s = .next t ∧ rbatTurns (rs.length - 1) t = .next u ∧ u.seq = .idle ∧ u.res = v ∧
      u.trace = s.trace ++
        (rs ++ [v]).map (fun r => .r (s.cfg.sregBase sock + s.cfg.offRxRsr) (rdCtl sock) (bytesOfWord r)))

/-- R252, R266: a size register that never reads the same twice is read without end: however many reads have been made, no two
neighbours equal, BUSY is 1 and RES is left alone. -/
def Obligations.SizeReadNeverEndsWhileValuesChange : Prop :=
  ∀ (sock : Sock) (rs : List Word) (s : State), s.Ready → 2 ≤ rs.length →
    (∀ i : Nat, i + 1 < rs.length → rs[i]? ≠ rs[i + 1]?) →
    s.nextBytes (2 * rs.length) = rs.flatMap bytesOfWord →
    (∃ t u : State, exec (.txfree sock) s = .next t ∧ rbatTurns (rs.length - 2) t = .next u ∧ u.seq = .txfreeRead ∧
      u.busy = true ∧ u.res = s.res) ∧
    (∃ t u : State, exec (.rxsize sock) s = .next t ∧ rbatTurns (rs.length - 2) t = .next u ∧ u.seq = .rxsizeRead ∧
      u.busy = true ∧ u.res = s.res)

/-! ## The six frames -/

/-- R109, R113, R146: a write frame with its data phase due: one write transaction with the control byte of its kind, then SEQ is
idle. -/
def Obligations.WriteFramesDoOneTransaction : Prop :=
  ∀ (a : Word) (sock : Sock) (h : Header) (d : List Byte) (n : Nat) (s : State), s.seq = .xfer h d n → s.csOe = true →
    s.csn = true → 1 ≤ d.length → a.toNat + d.length ≤ 65536 →
    exec (.fWrGen a) s = .next { s.did [.w a 0x04 d] with seq := .idle } ∧
    exec (.fWrSreg a sock) s = .next { s.did [.w a ((sock.zeroExtend 8 <<< 5) + 0x0C) d] with seq := .idle } ∧
    exec (.fWrTxb a sock) s = .next { s.did [.w a (snCtl sock s.cfg.bankTx true) d] with seq := .idle }

/-- R109, R113, R147: a read frame with its data phase due: one read transaction with the control byte of its kind, the bytes being
what the chip returns, then SEQ is idle. -/
def Obligations.ReadFramesDoOneTransaction : Prop :=
  ∀ (a : Word) (sock : Sock) (h : Header) (d : List Byte) (n : Nat) (s : State), s.seq = .xfer h d n → s.csOe = true →
    s.csn = true → 1 ≤ n → a.toNat + n ≤ 65536 →
    exec (.fRdGen a) s = .next { (s.drew n).did [.r a 0x00 (s.nextBytes n)] with seq := .idle } ∧
    exec (.fRdSreg a sock) s =
      .next { (s.drew n).did [.r a ((sock.zeroExtend 8 <<< 5) + 0x08) (s.nextBytes n)] with seq := .idle } ∧
    exec (.fRdRxb a sock) s =
      .next { (s.drew n).did [.r a (snCtl sock s.cfg.bankRx false) (s.nextBytes n)] with seq := .idle }

/-! ## What the host reads, and how it waits -/

/-- R21, R23, R24, R27, R30, R44, U19, R271, R307: in every state STATUS is {BUSY, CS_OE, CSN}, and 0b111 between two polls; a host
read gives STATUS always, RES and SEG* exactly when they have been written since reset, REQ never. An operation that writes RES or
SEG* makes them written when it ends, and no other operation or turn of RBAT does (that a ghost bit says so is the model's form,
log 3). A host that awaits does nothing while BUSY = 1 or a request is pending, and goes on in the host's turn in which neither holds
(log 7). -/
def Obligations.HostReadsStatusAndResults : Prop :=
  (∀ s : State, s.status.getLsbD 2 = s.busy ∧ s.status.getLsbD 1 = s.csOe ∧ s.status.getLsbD 0 = s.csn ∧
    (s.busy = true ↔ s.seq ≠ .idle) ∧ (s.Inv → s.InLoop → s.status = 0b111)) ∧
  (∀ s : State, s.hostRead .status = some (s.status.zeroExtend 16) ∧ s.hostRead .req = none ∧
    s.hostRead .res = (if s.resWritten then some s.res else none) ∧
    s.hostRead .seg1a = (if s.segWritten then some s.seg.seg1a else none) ∧
    s.hostRead .seg1l = (if s.segWritten then some s.seg.seg1l else none) ∧
    s.hostRead .seg2a = (if s.segWritten then some s.seg.seg2a else none) ∧
    s.hostRead .seg2l = (if s.segWritten then some s.seg.seg2l else none)) ∧
  (∀ (i : Instr) (s t : State), StartsIn i s → exec i s = .next t →
    (t.resWritten = true ↔ s.resWritten = true ∨ (i.writesRes = true ∧ t.seq = .idle)) ∧
    (t.segWritten = true ↔ s.segWritten = true ∨ i.writesSegs = true)) ∧
  (∀ s t : State, s.InLoop → rbatTurn s = .next t →
    (t.resWritten = true ↔ s.resWritten = true ∨ (s.seq ≠ .execPoll ∧ t.seq = .idle)) ∧ t.segWritten = s.segWritten) ∧
  (∀ (s : State) (rest : List HostAct), s.inbox = .await :: rest →
    (s.busy = true ∨ s.req ≠ none → hostTurn s = .next s) ∧
    (s.busy = false → s.req = none → hostTurn s = .next { s with inbox := rest }))
end

