-- ==== Sys2Proof/Laws/Encoding.lean ====
section
/-! SUPPORT. The bits of request words and headers: joining and splitting fields, and what the small field functions give back. -/

namespace Sys2Proof

open Machine

/-! ## Request words (R101) -/

/-- Splitting a joined word gives the fields back. -/
theorem splitWord_joinWord (o : Operands) : splitWord (joinWord o) = o := by
  obtain ⟨a, b, c, d, e⟩ := o
  simp only [splitWord, joinWord, Operands.mk.injEq]
  refine ⟨?_, ?_, ?_, ?_, ?_⟩ <;>
  · apply BitVec.eq_of_getLsbD_eq
    intro i hi
    simp only [BitVec.getLsbD_extractLsb', BitVec.getLsbD_append, hi, decide_true, Bool.true_and]
    split_ifs <;> first | omega | (congr 1; omega)

/-- Joining the fields of a word gives the word back. -/
theorem joinWord_splitWord (w : ReqWord) : joinWord (splitWord w) = w := by
  simp only [splitWord, joinWord]
  apply BitVec.eq_of_getLsbD_eq
  intro i hi
  simp only [BitVec.getLsbD_extractLsb', BitVec.getLsbD_append]
  split_ifs <;> simp <;> (try rw [decide_eq_true (by omega)]) <;> (try simp) <;> (congr 1; omega)

/-- Masking a word masks its fields. -/
theorem joinWord_and (o m : Operands) :
    joinWord o &&& joinWord m =
      joinWord ⟨o.op &&& m.op, o.sel &&& m.sel, o.addr &&& m.addr, o.len &&& m.len, o.dat &&& m.dat⟩ := by
  apply BitVec.eq_of_getLsbD_eq
  intro i _
  simp only [joinWord, BitVec.getLsbD_and, BitVec.getLsbD_append]
  split_ifs <;> rfl

@[simp] theorem selSock_selOf (s : Sock) (p : Bool) : selSock (selOf s p) = s := by revert s p; decide
@[simp] theorem selPeek_selOf (s : Sock) (p : Bool) : selPeek (selOf s p) = p := by revert s p; decide
@[simp] theorem selPlain_selOf (s : Sock) : selPlain (selOf s false) = true := by revert s; decide
@[simp] theorem selPeekable_selOf (s : Sock) (p : Bool) : selPeekable (selOf s p) = true := by revert s p; decide
@[simp] theorem datHighZero_datOfByte (b : Byte) : datHighZero (datOfByte b) = true := by revert b; decide
@[simp] theorem datByte_datOfByte (b : Byte) : datByte (datOfByte b) = b := by revert b; decide

/-- A selector byte with clear low bits is a socket without peek. -/
theorem selPlain_iff (b : Byte) : selPlain b = true ↔ selOf (selSock b) false = b := by revert b; decide

/-- A selector byte RECV accepts is a socket and a peek bit. -/
theorem selPeekable_iff (b : Byte) : selPeekable b = true ↔ selOf (selSock b) (selPeek b) = b := by revert b; decide

/-- A data field with a clear high byte is a byte (R105). -/
theorem datHighZero_iff (d : Word) : datHighZero d = true ↔ datOfByte (datByte d) = d := by
  have z : ∀ x : Byte, (0#8 ++ x : Word).toNat = x.toNat := fun x => by rw [BitVec.toNat_append]; simp
  simp only [datHighZero, datOfByte, datByte, beq_iff_eq]
  constructor <;> intro h <;> apply BitVec.eq_of_toNat_eq <;> have e := congrArg BitVec.toNat h
  · rw [z]
    simp [Nat.shiftRight_eq_div_pow] at e ⊢
    omega
  · rw [z] at e
    simp [Nat.shiftRight_eq_div_pow] at e ⊢
    omega

/-! ## Headers (R108, R110) -/

/-- The address of a joined header. -/
@[simp] theorem joinHeader_addr (a : Word) (c : Byte) : (joinHeader a c).extractLsb' 8 16 = a := by
  apply BitVec.eq_of_getLsbD_eq
  intro i hi
  simp only [joinHeader, BitVec.getLsbD_extractLsb', BitVec.getLsbD_append, hi, decide_true, Bool.true_and]
  split_ifs <;> first | omega | (congr 1; omega)

/-- The control byte of a joined header. -/
@[simp] theorem joinHeader_ctl (a : Word) (c : Byte) : (joinHeader a c).extractLsb' 0 8 = c := by
  apply BitVec.eq_of_getLsbD_eq
  intro i hi
  simp only [joinHeader, BitVec.getLsbD_extractLsb', BitVec.getLsbD_append, hi, decide_true, Bool.true_and]
  split_ifs <;> first | omega | (congr 1; omega)

/-- Joining the parts of a header gives it back. -/
theorem joinHeader_split (h : Header) : joinHeader (h.extractLsb' 8 16) (h.extractLsb' 0 8) = h := by
  apply BitVec.eq_of_getLsbD_eq
  intro i hi
  simp only [joinHeader, BitVec.getLsbD_extractLsb', BitVec.getLsbD_append]
  split_ifs <;> (try simp) <;> (try rw [decide_eq_true (by omega)]) <;> (try simp) <;> (congr 1; omega)

/-- A control byte with clear width bits is its three fields. -/
theorem snCtl_fields (c : Byte) (h : badCtlWidth c = false) : snCtl (ctlSockOf c) (ctlBankOf c) (ctlWrite c) = c := by
  revert c; decide

@[simp] theorem ctlSockOf_snCtl (s : Sock) (b : Bank) (w : Bool) : ctlSockOf (snCtl s b w) = s := by revert s b w; decide
@[simp] theorem ctlBankOf_snCtl (s : Sock) (b : Bank) (w : Bool) : ctlBankOf (snCtl s b w) = b := by revert s b w; decide
@[simp] theorem ctlWrite_snCtl (s : Sock) (b : Bank) (w : Bool) : ctlWrite (snCtl s b w) = w := by revert s b w; decide
@[simp] theorem badCtlWidth_snCtl (s : Sock) (b : Bank) (w : Bool) : badCtlWidth (snCtl s b w) = false := by
  revert s b w; decide

/-- A control byte with a bank of a socket is one the chip space has. -/
theorem badCtlBank_snCtl (s : Sock) (b : Bank) (w : Bool) (h : b ≠ 0) : badCtlBank (snCtl s b w) = false := by
  revert s b w; decide

/-- A location is the bank bits of the control byte, then the address (R61). -/
theorem locOf_eq (c : Byte) (a : Nat) : locOf c a = c.toNat / 8 * 65536 + a := by
  have := c.isLt
  simp only [locOf, BitVec.extractLsb'_toNat, Nat.shiftRight_eq_div_pow]
  omega

end Sys2Proof
end

