-- ==== Sys2Proof/Laws/Memory.lean ====
section
/-! SUPPORT. The chip space: reading after writing, the canonical form, and runs. -/

namespace Sys2Proof.Machine

@[simp] theorem Memory.read_write_same (a : Nat) (b : Byte) (m : Memory) : Memory.read a (Memory.write a b m) = some b := by
  induction m with
  | nil => simp [Memory.write, Memory.read]
  | cons c rest ih =>
    obtain ⟨x, v⟩ := c
    simp only [Memory.write]
    split
    · simp [Memory.read]
    · split
      · simp [Memory.read]
      · rename_i h1 h2
        simp [Memory.read, ih, Ne.symm h2]

theorem Memory.read_write_other {a a' : Nat} (h : a' ≠ a) (b : Byte) (m : Memory) :
    Memory.read a' (Memory.write a b m) = Memory.read a' m := by
  induction m with
  | nil => simp [Memory.write, Memory.read, Ne.symm h]
  | cons c rest ih =>
    obtain ⟨x, v⟩ := c
    simp only [Memory.write]
    split
    · simp [Memory.read, Ne.symm h]
    · split
      · rename_i h1 h2
        subst h2
        simp [Memory.read, Ne.symm h]
      · simp [Memory.read, ih]

theorem Memory.wf_cons {x : Nat} {v : Byte} {m : Memory} :
    Memory.wf ((x, v) :: m) = true ↔ (∀ p ∈ m.head?, x < p.1) ∧ Memory.wf m = true := by
  cases m with
  | nil => simp [Memory.wf]
  | cons c rest => obtain ⟨y, w⟩ := c; simp [Memory.wf]

/-- A write keeps the first location at least the smaller of the old first one and the written one. -/
theorem Memory.head_write {lo a : Nat} (ha : lo < a) (b : Byte) (m : Memory) (h : ∀ p ∈ m.head?, lo < p.1) :
    ∀ p ∈ (Memory.write a b m).head?, lo < p.1 := by
  cases m with
  | nil => simpa [Memory.write] using ha
  | cons c rest =>
    obtain ⟨x, v⟩ := c
    have hx : lo < x := h (x, v) rfl
    simp only [Memory.write]
    split
    · simpa using ha
    · split <;> simpa

/-- Writing keeps the canonical form. -/
theorem Memory.wf_write (a : Nat) (b : Byte) (m : Memory) (h : Memory.wf m = true) : Memory.wf (Memory.write a b m) = true := by
  induction m with
  | nil => rfl
  | cons c rest ih =>
    obtain ⟨x, v⟩ := c
    have hc := Memory.wf_cons.mp h
    simp only [Memory.write]
    split
    · rename_i h1
      exact Memory.wf_cons.mpr ⟨by simpa using h1, h⟩
    · split
      · rename_i h1 h2
        subst h2
        exact Memory.wf_cons.mpr hc
      · rename_i h1 h2
        exact Memory.wf_cons.mpr ⟨Memory.head_write (by omega) b rest hc.1, ih hc.2⟩

/-- Writing a run keeps the canonical form. -/
theorem Memory.wf_writeRun (d : List Byte) (a : Nat) (m : Memory) (h : Memory.wf m = true) :
    Memory.wf (Memory.writeRun a d m) = true := by
  induction d generalizing a m with
  | nil => exact h
  | cons b bs ih => exact ih (a + 1) _ (Memory.wf_write a b m h)

/-- A run leaves every other location alone. -/
theorem Memory.read_writeRun_outside (d : List Byte) {a x : Nat} (m : Memory) (h : x < a ∨ a + d.length ≤ x) :
    Memory.read x (Memory.writeRun a d m) = Memory.read x m := by
  induction d generalizing a m with
  | nil => rfl
  | cons b bs ih =>
    have hl : (b :: bs).length = bs.length + 1 := rfl
    rw [Memory.writeRun, ih _ (by omega), Memory.read_write_other (by omega)]

/-- A run puts byte `i` at its `i`-th location (R66). -/
theorem Memory.read_writeRun_inside (d : List Byte) (a i : Nat) (m : Memory) (h : i < d.length) :
    Memory.read (a + i) (Memory.writeRun a d m) = some d[i] := by
  induction d generalizing a i m with
  | nil => simp at h
  | cons b bs ih =>
    cases i with
    | zero => rw [Memory.writeRun, Memory.read_writeRun_outside _ _ (by omega)]; simp
    | succ i =>
      have := ih (a + 1) i (Memory.write a b m) (by simpa using h)
      simpa [Memory.writeRun, Nat.add_assoc, Nat.add_comm 1 i] using this

@[simp] theorem memAfter_nil (m : Memory) : memAfter [] m = m := rfl

@[simp] theorem memAfter_cons (t : Txn) (ts : List Txn) (m : Memory) : memAfter (t :: ts) m = memAfter ts (t.store m) := rfl

theorem memAfter_append (a b : List Txn) (m : Memory) : memAfter (a ++ b) m = memAfter b (memAfter a m) := by
  simp [memAfter]

/-- Transactions keep the canonical form of the chip space. -/
theorem wf_memAfter (ts : List Txn) (m : Memory) (h : Memory.wf m = true) : Memory.wf (memAfter ts m) = true := by
  induction ts generalizing m with
  | nil => exact h
  | cons t ts ih =>
    cases t with
    | w a c d => exact ih _ (Memory.wf_writeRun d _ m h)
    | r a c d => exact ih _ h

/-- The reset state's chip space is in canonical form. -/
theorem State.reset_chipMem_wf : Memory.wf State.reset.chipMem = true := rfl

end Sys2Proof.Machine
end

