-- ==== Sys2Proof/Laws/State.lean ====
section
/-! SUPPORT. For each named update of the state, what it leaves in each field. -/

namespace Sys2Proof.Machine

variable (s : State)

/-! ## csFall -/

@[simp] theorem State.csFall_cfg : s.csFall.cfg = s.cfg := rfl
@[simp] theorem State.csFall_req : s.csFall.req = s.req := rfl
@[simp] theorem State.csFall_res : s.csFall.res = s.res := rfl
@[simp] theorem State.csFall_resWritten : s.csFall.resWritten = s.resWritten := rfl
@[simp] theorem State.csFall_seg : s.csFall.seg = s.seg := rfl
@[simp] theorem State.csFall_segWritten : s.csFall.segWritten = s.segWritten := rfl
@[simp] theorem State.csFall_csOe : s.csFall.csOe = s.csOe := rfl
@[simp] theorem State.csFall_csn : s.csFall.csn = false := rfl
@[simp] theorem State.csFall_din : s.csFall.din = s.din := rfl
@[simp] theorem State.csFall_dout : s.csFall.dout = s.dout := rfl
@[simp] theorem State.csFall_seq : s.csFall.seq = s.seq := rfl
@[simp] theorem State.csFall_opnd : s.csFall.opnd = s.opnd := rfl
@[simp] theorem State.csFall_ptr : s.csFall.ptr = s.ptr := rfl
@[simp] theorem State.csFall_vprev : s.csFall.vprev = s.vprev := rfl
@[simp] theorem State.csFall_k : s.csFall.k = s.k := rfl
@[simp] theorem State.csFall_trace : s.csFall.trace = s.trace := rfl
@[simp] theorem State.csFall_wire : s.csFall.wire = s.wire ++ [.fall] := rfl
@[simp] theorem State.csFall_chipMem : s.csFall.chipMem = s.chipMem := rfl
@[simp] theorem State.csFall_chip : s.csFall.chip = s.chip := rfl
@[simp] theorem State.csFall_drawn : s.csFall.drawn = s.drawn := rfl
@[simp] theorem State.csFall_inbox : s.csFall.inbox = s.inbox := rfl

/-! ## csRise -/

@[simp] theorem State.csRise_cfg : s.csRise.cfg = s.cfg := rfl
@[simp] theorem State.csRise_req : s.csRise.req = s.req := rfl
@[simp] theorem State.csRise_res : s.csRise.res = s.res := rfl
@[simp] theorem State.csRise_resWritten : s.csRise.resWritten = s.resWritten := rfl
@[simp] theorem State.csRise_seg : s.csRise.seg = s.seg := rfl
@[simp] theorem State.csRise_segWritten : s.csRise.segWritten = s.segWritten := rfl
@[simp] theorem State.csRise_csOe : s.csRise.csOe = s.csOe := rfl
@[simp] theorem State.csRise_csn : s.csRise.csn = true := rfl
@[simp] theorem State.csRise_din : s.csRise.din = s.din := rfl
@[simp] theorem State.csRise_dout : s.csRise.dout = s.dout := rfl
@[simp] theorem State.csRise_seq : s.csRise.seq = s.seq := rfl
@[simp] theorem State.csRise_opnd : s.csRise.opnd = s.opnd := rfl
@[simp] theorem State.csRise_ptr : s.csRise.ptr = s.ptr := rfl
@[simp] theorem State.csRise_vprev : s.csRise.vprev = s.vprev := rfl
@[simp] theorem State.csRise_k : s.csRise.k = s.k := rfl
@[simp] theorem State.csRise_trace : s.csRise.trace = s.trace := rfl
@[simp] theorem State.csRise_wire : s.csRise.wire = s.wire ++ [.rise] := rfl
@[simp] theorem State.csRise_chipMem : s.csRise.chipMem = s.chipMem := rfl
@[simp] theorem State.csRise_chip : s.csRise.chip = s.chip := rfl
@[simp] theorem State.csRise_drawn : s.csRise.drawn = s.drawn := rfl
@[simp] theorem State.csRise_inbox : s.csRise.inbox = s.inbox := rfl

/-! ## shiftOut -/

@[simp] theorem State.shiftOut_cfg (b : Byte) : (s.shiftOut b).cfg = s.cfg := rfl
@[simp] theorem State.shiftOut_req (b : Byte) : (s.shiftOut b).req = s.req := rfl
@[simp] theorem State.shiftOut_res (b : Byte) : (s.shiftOut b).res = s.res := rfl
@[simp] theorem State.shiftOut_resWritten (b : Byte) : (s.shiftOut b).resWritten = s.resWritten := rfl
@[simp] theorem State.shiftOut_seg (b : Byte) : (s.shiftOut b).seg = s.seg := rfl
@[simp] theorem State.shiftOut_segWritten (b : Byte) : (s.shiftOut b).segWritten = s.segWritten := rfl
@[simp] theorem State.shiftOut_csOe (b : Byte) : (s.shiftOut b).csOe = s.csOe := rfl
@[simp] theorem State.shiftOut_csn (b : Byte) : (s.shiftOut b).csn = s.csn := rfl
@[simp] theorem State.shiftOut_din (b : Byte) : (s.shiftOut b).din = s.din := rfl
@[simp] theorem State.shiftOut_dout (b : Byte) : (s.shiftOut b).dout = s.dout := rfl
@[simp] theorem State.shiftOut_seq (b : Byte) : (s.shiftOut b).seq = s.seq := rfl
@[simp] theorem State.shiftOut_opnd (b : Byte) : (s.shiftOut b).opnd = s.opnd := rfl
@[simp] theorem State.shiftOut_ptr (b : Byte) : (s.shiftOut b).ptr = s.ptr := rfl
@[simp] theorem State.shiftOut_vprev (b : Byte) : (s.shiftOut b).vprev = s.vprev := rfl
@[simp] theorem State.shiftOut_k (b : Byte) : (s.shiftOut b).k = s.k := rfl
@[simp] theorem State.shiftOut_trace (b : Byte) : (s.shiftOut b).trace = s.trace := rfl
@[simp] theorem State.shiftOut_wire (b : Byte) : (s.shiftOut b).wire = s.wire ++ [.out b] := rfl
@[simp] theorem State.shiftOut_chipMem (b : Byte) : (s.shiftOut b).chipMem = s.chipMem := rfl
@[simp] theorem State.shiftOut_chip (b : Byte) : (s.shiftOut b).chip = s.chip := rfl
@[simp] theorem State.shiftOut_drawn (b : Byte) : (s.shiftOut b).drawn = s.drawn := rfl
@[simp] theorem State.shiftOut_inbox (b : Byte) : (s.shiftOut b).inbox = s.inbox := rfl

/-! ## log -/

@[simp] theorem State.log_cfg (t : Txn) : (s.log t).cfg = s.cfg := rfl
@[simp] theorem State.log_req (t : Txn) : (s.log t).req = s.req := rfl
@[simp] theorem State.log_res (t : Txn) : (s.log t).res = s.res := rfl
@[simp] theorem State.log_resWritten (t : Txn) : (s.log t).resWritten = s.resWritten := rfl
@[simp] theorem State.log_seg (t : Txn) : (s.log t).seg = s.seg := rfl
@[simp] theorem State.log_segWritten (t : Txn) : (s.log t).segWritten = s.segWritten := rfl
@[simp] theorem State.log_csOe (t : Txn) : (s.log t).csOe = s.csOe := rfl
@[simp] theorem State.log_csn (t : Txn) : (s.log t).csn = s.csn := rfl
@[simp] theorem State.log_din (t : Txn) : (s.log t).din = s.din := rfl
@[simp] theorem State.log_dout (t : Txn) : (s.log t).dout = s.dout := rfl
@[simp] theorem State.log_seq (t : Txn) : (s.log t).seq = s.seq := rfl
@[simp] theorem State.log_opnd (t : Txn) : (s.log t).opnd = s.opnd := rfl
@[simp] theorem State.log_ptr (t : Txn) : (s.log t).ptr = s.ptr := rfl
@[simp] theorem State.log_vprev (t : Txn) : (s.log t).vprev = s.vprev := rfl
@[simp] theorem State.log_k (t : Txn) : (s.log t).k = s.k := rfl
@[simp] theorem State.log_trace (t : Txn) : (s.log t).trace = s.trace ++ [t] := rfl
@[simp] theorem State.log_wire (t : Txn) : (s.log t).wire = s.wire := rfl
@[simp] theorem State.log_chipMem (t : Txn) : (s.log t).chipMem = s.chipMem := rfl
@[simp] theorem State.log_chip (t : Txn) : (s.log t).chip = s.chip := rfl
@[simp] theorem State.log_drawn (t : Txn) : (s.log t).drawn = s.drawn := rfl
@[simp] theorem State.log_inbox (t : Txn) : (s.log t).inbox = s.inbox := rfl

/-! ## deliver -/

@[simp] theorem State.deliver_cfg (a : Word) (c : Byte) (d : List Byte) : (s.deliver a c d).cfg = s.cfg := rfl
@[simp] theorem State.deliver_req (a : Word) (c : Byte) (d : List Byte) : (s.deliver a c d).req = s.req := rfl
@[simp] theorem State.deliver_res (a : Word) (c : Byte) (d : List Byte) : (s.deliver a c d).res = s.res := rfl
@[simp] theorem State.deliver_resWritten (a : Word) (c : Byte) (d : List Byte) : (s.deliver a c d).resWritten = s.resWritten := rfl
@[simp] theorem State.deliver_seg (a : Word) (c : Byte) (d : List Byte) : (s.deliver a c d).seg = s.seg := rfl
@[simp] theorem State.deliver_segWritten (a : Word) (c : Byte) (d : List Byte) : (s.deliver a c d).segWritten = s.segWritten := rfl
@[simp] theorem State.deliver_csOe (a : Word) (c : Byte) (d : List Byte) : (s.deliver a c d).csOe = s.csOe := rfl
@[simp] theorem State.deliver_csn (a : Word) (c : Byte) (d : List Byte) : (s.deliver a c d).csn = s.csn := rfl
@[simp] theorem State.deliver_din (a : Word) (c : Byte) (d : List Byte) : (s.deliver a c d).din = s.din := rfl
@[simp] theorem State.deliver_dout (a : Word) (c : Byte) (d : List Byte) : (s.deliver a c d).dout = s.dout := rfl
@[simp] theorem State.deliver_seq (a : Word) (c : Byte) (d : List Byte) : (s.deliver a c d).seq = s.seq := rfl
@[simp] theorem State.deliver_opnd (a : Word) (c : Byte) (d : List Byte) : (s.deliver a c d).opnd = s.opnd := rfl
@[simp] theorem State.deliver_ptr (a : Word) (c : Byte) (d : List Byte) : (s.deliver a c d).ptr = s.ptr := rfl
@[simp] theorem State.deliver_vprev (a : Word) (c : Byte) (d : List Byte) : (s.deliver a c d).vprev = s.vprev := rfl
@[simp] theorem State.deliver_k (a : Word) (c : Byte) (d : List Byte) : (s.deliver a c d).k = s.k := rfl
@[simp] theorem State.deliver_trace (a : Word) (c : Byte) (d : List Byte) : (s.deliver a c d).trace = s.trace := rfl
@[simp] theorem State.deliver_wire (a : Word) (c : Byte) (d : List Byte) : (s.deliver a c d).wire = s.wire := rfl
@[simp] theorem State.deliver_chipMem (a : Word) (c : Byte) (d : List Byte) : (s.deliver a c d).chipMem = Memory.writeRun (locOf c a.toNat) d s.chipMem := rfl
@[simp] theorem State.deliver_chip (a : Word) (c : Byte) (d : List Byte) : (s.deliver a c d).chip = s.chip := rfl
@[simp] theorem State.deliver_drawn (a : Word) (c : Byte) (d : List Byte) : (s.deliver a c d).drawn = s.drawn := rfl
@[simp] theorem State.deliver_inbox (a : Word) (c : Byte) (d : List Byte) : (s.deliver a c d).inbox = s.inbox := rfl

/-! ## setRes -/

@[simp] theorem State.setRes_cfg (v : Word) : (s.setRes v).cfg = s.cfg := rfl
@[simp] theorem State.setRes_req (v : Word) : (s.setRes v).req = s.req := rfl
@[simp] theorem State.setRes_res (v : Word) : (s.setRes v).res = v := rfl
@[simp] theorem State.setRes_resWritten (v : Word) : (s.setRes v).resWritten = true := rfl
@[simp] theorem State.setRes_seg (v : Word) : (s.setRes v).seg = s.seg := rfl
@[simp] theorem State.setRes_segWritten (v : Word) : (s.setRes v).segWritten = s.segWritten := rfl
@[simp] theorem State.setRes_csOe (v : Word) : (s.setRes v).csOe = s.csOe := rfl
@[simp] theorem State.setRes_csn (v : Word) : (s.setRes v).csn = s.csn := rfl
@[simp] theorem State.setRes_din (v : Word) : (s.setRes v).din = s.din := rfl
@[simp] theorem State.setRes_dout (v : Word) : (s.setRes v).dout = s.dout := rfl
@[simp] theorem State.setRes_seq (v : Word) : (s.setRes v).seq = s.seq := rfl
@[simp] theorem State.setRes_opnd (v : Word) : (s.setRes v).opnd = s.opnd := rfl
@[simp] theorem State.setRes_ptr (v : Word) : (s.setRes v).ptr = s.ptr := rfl
@[simp] theorem State.setRes_vprev (v : Word) : (s.setRes v).vprev = s.vprev := rfl
@[simp] theorem State.setRes_k (v : Word) : (s.setRes v).k = s.k := rfl
@[simp] theorem State.setRes_trace (v : Word) : (s.setRes v).trace = s.trace := rfl
@[simp] theorem State.setRes_wire (v : Word) : (s.setRes v).wire = s.wire := rfl
@[simp] theorem State.setRes_chipMem (v : Word) : (s.setRes v).chipMem = s.chipMem := rfl
@[simp] theorem State.setRes_chip (v : Word) : (s.setRes v).chip = s.chip := rfl
@[simp] theorem State.setRes_drawn (v : Word) : (s.setRes v).drawn = s.drawn := rfl
@[simp] theorem State.setRes_inbox (v : Word) : (s.setRes v).inbox = s.inbox := rfl

/-! ## setSegs -/

@[simp] theorem State.setSegs_cfg (ps : List (Nat × Nat)) (B : Nat) : (s.setSegs ps B).cfg = s.cfg := rfl
@[simp] theorem State.setSegs_req (ps : List (Nat × Nat)) (B : Nat) : (s.setSegs ps B).req = s.req := rfl
@[simp] theorem State.setSegs_res (ps : List (Nat × Nat)) (B : Nat) : (s.setSegs ps B).res = s.res := rfl
@[simp] theorem State.setSegs_resWritten (ps : List (Nat × Nat)) (B : Nat) : (s.setSegs ps B).resWritten = s.resWritten := rfl
@[simp] theorem State.setSegs_seg (ps : List (Nat × Nat)) (B : Nat) : (s.setSegs ps B).seg = ⟨BitVec.ofNat 16 (firstPiece ps).1, BitVec.ofNat 16 (firstPiece ps).2, BitVec.ofNat 16 B, BitVec.ofNat 16 (secondLen ps)⟩ := rfl
@[simp] theorem State.setSegs_segWritten (ps : List (Nat × Nat)) (B : Nat) : (s.setSegs ps B).segWritten = true := rfl
@[simp] theorem State.setSegs_csOe (ps : List (Nat × Nat)) (B : Nat) : (s.setSegs ps B).csOe = s.csOe := rfl
@[simp] theorem State.setSegs_csn (ps : List (Nat × Nat)) (B : Nat) : (s.setSegs ps B).csn = s.csn := rfl
@[simp] theorem State.setSegs_din (ps : List (Nat × Nat)) (B : Nat) : (s.setSegs ps B).din = s.din := rfl
@[simp] theorem State.setSegs_dout (ps : List (Nat × Nat)) (B : Nat) : (s.setSegs ps B).dout = s.dout := rfl
@[simp] theorem State.setSegs_seq (ps : List (Nat × Nat)) (B : Nat) : (s.setSegs ps B).seq = s.seq := rfl
@[simp] theorem State.setSegs_opnd (ps : List (Nat × Nat)) (B : Nat) : (s.setSegs ps B).opnd = s.opnd := rfl
@[simp] theorem State.setSegs_ptr (ps : List (Nat × Nat)) (B : Nat) : (s.setSegs ps B).ptr = s.ptr := rfl
@[simp] theorem State.setSegs_vprev (ps : List (Nat × Nat)) (B : Nat) : (s.setSegs ps B).vprev = s.vprev := rfl
@[simp] theorem State.setSegs_k (ps : List (Nat × Nat)) (B : Nat) : (s.setSegs ps B).k = s.k := rfl
@[simp] theorem State.setSegs_trace (ps : List (Nat × Nat)) (B : Nat) : (s.setSegs ps B).trace = s.trace := rfl
@[simp] theorem State.setSegs_wire (ps : List (Nat × Nat)) (B : Nat) : (s.setSegs ps B).wire = s.wire := rfl
@[simp] theorem State.setSegs_chipMem (ps : List (Nat × Nat)) (B : Nat) : (s.setSegs ps B).chipMem = s.chipMem := rfl
@[simp] theorem State.setSegs_chip (ps : List (Nat × Nat)) (B : Nat) : (s.setSegs ps B).chip = s.chip := rfl
@[simp] theorem State.setSegs_drawn (ps : List (Nat × Nat)) (B : Nat) : (s.setSegs ps B).drawn = s.drawn := rfl
@[simp] theorem State.setSegs_inbox (ps : List (Nat × Nat)) (B : Nat) : (s.setSegs ps B).inbox = s.inbox := rfl

/-! ## setPtr -/

@[simp] theorem State.setPtr_cfg (v : Word) : (s.setPtr v).cfg = s.cfg := rfl
@[simp] theorem State.setPtr_req (v : Word) : (s.setPtr v).req = s.req := rfl
@[simp] theorem State.setPtr_res (v : Word) : (s.setPtr v).res = s.res := rfl
@[simp] theorem State.setPtr_resWritten (v : Word) : (s.setPtr v).resWritten = s.resWritten := rfl
@[simp] theorem State.setPtr_seg (v : Word) : (s.setPtr v).seg = s.seg := rfl
@[simp] theorem State.setPtr_segWritten (v : Word) : (s.setPtr v).segWritten = s.segWritten := rfl
@[simp] theorem State.setPtr_csOe (v : Word) : (s.setPtr v).csOe = s.csOe := rfl
@[simp] theorem State.setPtr_csn (v : Word) : (s.setPtr v).csn = s.csn := rfl
@[simp] theorem State.setPtr_din (v : Word) : (s.setPtr v).din = s.din := rfl
@[simp] theorem State.setPtr_dout (v : Word) : (s.setPtr v).dout = s.dout := rfl
@[simp] theorem State.setPtr_seq (v : Word) : (s.setPtr v).seq = s.seq := rfl
@[simp] theorem State.setPtr_opnd (v : Word) : (s.setPtr v).opnd = s.opnd := rfl
@[simp] theorem State.setPtr_ptr (v : Word) : (s.setPtr v).ptr = v := rfl
@[simp] theorem State.setPtr_vprev (v : Word) : (s.setPtr v).vprev = s.vprev := rfl
@[simp] theorem State.setPtr_k (v : Word) : (s.setPtr v).k = s.k := rfl
@[simp] theorem State.setPtr_trace (v : Word) : (s.setPtr v).trace = s.trace := rfl
@[simp] theorem State.setPtr_wire (v : Word) : (s.setPtr v).wire = s.wire := rfl
@[simp] theorem State.setPtr_chipMem (v : Word) : (s.setPtr v).chipMem = s.chipMem := rfl
@[simp] theorem State.setPtr_chip (v : Word) : (s.setPtr v).chip = s.chip := rfl
@[simp] theorem State.setPtr_drawn (v : Word) : (s.setPtr v).drawn = s.drawn := rfl
@[simp] theorem State.setPtr_inbox (v : Word) : (s.setPtr v).inbox = s.inbox := rfl

/-! ## setVprev -/

@[simp] theorem State.setVprev_cfg (v : Word) : (s.setVprev v).cfg = s.cfg := rfl
@[simp] theorem State.setVprev_req (v : Word) : (s.setVprev v).req = s.req := rfl
@[simp] theorem State.setVprev_res (v : Word) : (s.setVprev v).res = s.res := rfl
@[simp] theorem State.setVprev_resWritten (v : Word) : (s.setVprev v).resWritten = s.resWritten := rfl
@[simp] theorem State.setVprev_seg (v : Word) : (s.setVprev v).seg = s.seg := rfl
@[simp] theorem State.setVprev_segWritten (v : Word) : (s.setVprev v).segWritten = s.segWritten := rfl
@[simp] theorem State.setVprev_csOe (v : Word) : (s.setVprev v).csOe = s.csOe := rfl
@[simp] theorem State.setVprev_csn (v : Word) : (s.setVprev v).csn = s.csn := rfl
@[simp] theorem State.setVprev_din (v : Word) : (s.setVprev v).din = s.din := rfl
@[simp] theorem State.setVprev_dout (v : Word) : (s.setVprev v).dout = s.dout := rfl
@[simp] theorem State.setVprev_seq (v : Word) : (s.setVprev v).seq = s.seq := rfl
@[simp] theorem State.setVprev_opnd (v : Word) : (s.setVprev v).opnd = s.opnd := rfl
@[simp] theorem State.setVprev_ptr (v : Word) : (s.setVprev v).ptr = s.ptr := rfl
@[simp] theorem State.setVprev_vprev (v : Word) : (s.setVprev v).vprev = v := rfl
@[simp] theorem State.setVprev_k (v : Word) : (s.setVprev v).k = s.k := rfl
@[simp] theorem State.setVprev_trace (v : Word) : (s.setVprev v).trace = s.trace := rfl
@[simp] theorem State.setVprev_wire (v : Word) : (s.setVprev v).wire = s.wire := rfl
@[simp] theorem State.setVprev_chipMem (v : Word) : (s.setVprev v).chipMem = s.chipMem := rfl
@[simp] theorem State.setVprev_chip (v : Word) : (s.setVprev v).chip = s.chip := rfl
@[simp] theorem State.setVprev_drawn (v : Word) : (s.setVprev v).drawn = s.drawn := rfl
@[simp] theorem State.setVprev_inbox (v : Word) : (s.setVprev v).inbox = s.inbox := rfl

/-! ## setK -/

@[simp] theorem State.setK_cfg (n : Nat) : (s.setK n).cfg = s.cfg := rfl
@[simp] theorem State.setK_req (n : Nat) : (s.setK n).req = s.req := rfl
@[simp] theorem State.setK_res (n : Nat) : (s.setK n).res = s.res := rfl
@[simp] theorem State.setK_resWritten (n : Nat) : (s.setK n).resWritten = s.resWritten := rfl
@[simp] theorem State.setK_seg (n : Nat) : (s.setK n).seg = s.seg := rfl
@[simp] theorem State.setK_segWritten (n : Nat) : (s.setK n).segWritten = s.segWritten := rfl
@[simp] theorem State.setK_csOe (n : Nat) : (s.setK n).csOe = s.csOe := rfl
@[simp] theorem State.setK_csn (n : Nat) : (s.setK n).csn = s.csn := rfl
@[simp] theorem State.setK_din (n : Nat) : (s.setK n).din = s.din := rfl
@[simp] theorem State.setK_dout (n : Nat) : (s.setK n).dout = s.dout := rfl
@[simp] theorem State.setK_seq (n : Nat) : (s.setK n).seq = s.seq := rfl
@[simp] theorem State.setK_opnd (n : Nat) : (s.setK n).opnd = s.opnd := rfl
@[simp] theorem State.setK_ptr (n : Nat) : (s.setK n).ptr = s.ptr := rfl
@[simp] theorem State.setK_vprev (n : Nat) : (s.setK n).vprev = s.vprev := rfl
@[simp] theorem State.setK_k (n : Nat) : (s.setK n).k = n := rfl
@[simp] theorem State.setK_trace (n : Nat) : (s.setK n).trace = s.trace := rfl
@[simp] theorem State.setK_wire (n : Nat) : (s.setK n).wire = s.wire := rfl
@[simp] theorem State.setK_chipMem (n : Nat) : (s.setK n).chipMem = s.chipMem := rfl
@[simp] theorem State.setK_chip (n : Nat) : (s.setK n).chip = s.chip := rfl
@[simp] theorem State.setK_drawn (n : Nat) : (s.setK n).drawn = s.drawn := rfl
@[simp] theorem State.setK_inbox (n : Nat) : (s.setK n).inbox = s.inbox := rfl

/-! ## setSeq -/

@[simp] theorem State.setSeq_cfg (q : Seq) : (s.setSeq q).cfg = s.cfg := rfl
@[simp] theorem State.setSeq_req (q : Seq) : (s.setSeq q).req = s.req := rfl
@[simp] theorem State.setSeq_res (q : Seq) : (s.setSeq q).res = s.res := rfl
@[simp] theorem State.setSeq_resWritten (q : Seq) : (s.setSeq q).resWritten = s.resWritten := rfl
@[simp] theorem State.setSeq_seg (q : Seq) : (s.setSeq q).seg = s.seg := rfl
@[simp] theorem State.setSeq_segWritten (q : Seq) : (s.setSeq q).segWritten = s.segWritten := rfl
@[simp] theorem State.setSeq_csOe (q : Seq) : (s.setSeq q).csOe = s.csOe := rfl
@[simp] theorem State.setSeq_csn (q : Seq) : (s.setSeq q).csn = s.csn := rfl
@[simp] theorem State.setSeq_din (q : Seq) : (s.setSeq q).din = s.din := rfl
@[simp] theorem State.setSeq_dout (q : Seq) : (s.setSeq q).dout = s.dout := rfl
@[simp] theorem State.setSeq_seq (q : Seq) : (s.setSeq q).seq = q := rfl
@[simp] theorem State.setSeq_opnd (q : Seq) : (s.setSeq q).opnd = s.opnd := rfl
@[simp] theorem State.setSeq_ptr (q : Seq) : (s.setSeq q).ptr = s.ptr := rfl
@[simp] theorem State.setSeq_vprev (q : Seq) : (s.setSeq q).vprev = s.vprev := rfl
@[simp] theorem State.setSeq_k (q : Seq) : (s.setSeq q).k = s.k := rfl
@[simp] theorem State.setSeq_trace (q : Seq) : (s.setSeq q).trace = s.trace := rfl
@[simp] theorem State.setSeq_wire (q : Seq) : (s.setSeq q).wire = s.wire := rfl
@[simp] theorem State.setSeq_chipMem (q : Seq) : (s.setSeq q).chipMem = s.chipMem := rfl
@[simp] theorem State.setSeq_chip (q : Seq) : (s.setSeq q).chip = s.chip := rfl
@[simp] theorem State.setSeq_drawn (q : Seq) : (s.setSeq q).drawn = s.drawn := rfl
@[simp] theorem State.setSeq_inbox (q : Seq) : (s.setSeq q).inbox = s.inbox := rfl

/-! ## dropDin -/

@[simp] theorem State.dropDin_cfg (n : Nat) : (s.dropDin n).cfg = s.cfg := rfl
@[simp] theorem State.dropDin_req (n : Nat) : (s.dropDin n).req = s.req := rfl
@[simp] theorem State.dropDin_res (n : Nat) : (s.dropDin n).res = s.res := rfl
@[simp] theorem State.dropDin_resWritten (n : Nat) : (s.dropDin n).resWritten = s.resWritten := rfl
@[simp] theorem State.dropDin_seg (n : Nat) : (s.dropDin n).seg = s.seg := rfl
@[simp] theorem State.dropDin_segWritten (n : Nat) : (s.dropDin n).segWritten = s.segWritten := rfl
@[simp] theorem State.dropDin_csOe (n : Nat) : (s.dropDin n).csOe = s.csOe := rfl
@[simp] theorem State.dropDin_csn (n : Nat) : (s.dropDin n).csn = s.csn := rfl
@[simp] theorem State.dropDin_din (n : Nat) : (s.dropDin n).din = s.din.drop n := rfl
@[simp] theorem State.dropDin_dout (n : Nat) : (s.dropDin n).dout = s.dout := rfl
@[simp] theorem State.dropDin_seq (n : Nat) : (s.dropDin n).seq = s.seq := rfl
@[simp] theorem State.dropDin_opnd (n : Nat) : (s.dropDin n).opnd = s.opnd := rfl
@[simp] theorem State.dropDin_ptr (n : Nat) : (s.dropDin n).ptr = s.ptr := rfl
@[simp] theorem State.dropDin_vprev (n : Nat) : (s.dropDin n).vprev = s.vprev := rfl
@[simp] theorem State.dropDin_k (n : Nat) : (s.dropDin n).k = s.k := rfl
@[simp] theorem State.dropDin_trace (n : Nat) : (s.dropDin n).trace = s.trace := rfl
@[simp] theorem State.dropDin_wire (n : Nat) : (s.dropDin n).wire = s.wire := rfl
@[simp] theorem State.dropDin_chipMem (n : Nat) : (s.dropDin n).chipMem = s.chipMem := rfl
@[simp] theorem State.dropDin_chip (n : Nat) : (s.dropDin n).chip = s.chip := rfl
@[simp] theorem State.dropDin_drawn (n : Nat) : (s.dropDin n).drawn = s.drawn := rfl
@[simp] theorem State.dropDin_inbox (n : Nat) : (s.dropDin n).inbox = s.inbox := rfl

/-! ## putDout -/

@[simp] theorem State.putDout_cfg (d : List Byte) : (s.putDout d).cfg = s.cfg := rfl
@[simp] theorem State.putDout_req (d : List Byte) : (s.putDout d).req = s.req := rfl
@[simp] theorem State.putDout_res (d : List Byte) : (s.putDout d).res = s.res := rfl
@[simp] theorem State.putDout_resWritten (d : List Byte) : (s.putDout d).resWritten = s.resWritten := rfl
@[simp] theorem State.putDout_seg (d : List Byte) : (s.putDout d).seg = s.seg := rfl
@[simp] theorem State.putDout_segWritten (d : List Byte) : (s.putDout d).segWritten = s.segWritten := rfl
@[simp] theorem State.putDout_csOe (d : List Byte) : (s.putDout d).csOe = s.csOe := rfl
@[simp] theorem State.putDout_csn (d : List Byte) : (s.putDout d).csn = s.csn := rfl
@[simp] theorem State.putDout_din (d : List Byte) : (s.putDout d).din = s.din := rfl
@[simp] theorem State.putDout_dout (d : List Byte) : (s.putDout d).dout = s.dout ++ d := rfl
@[simp] theorem State.putDout_seq (d : List Byte) : (s.putDout d).seq = s.seq := rfl
@[simp] theorem State.putDout_opnd (d : List Byte) : (s.putDout d).opnd = s.opnd := rfl
@[simp] theorem State.putDout_ptr (d : List Byte) : (s.putDout d).ptr = s.ptr := rfl
@[simp] theorem State.putDout_vprev (d : List Byte) : (s.putDout d).vprev = s.vprev := rfl
@[simp] theorem State.putDout_k (d : List Byte) : (s.putDout d).k = s.k := rfl
@[simp] theorem State.putDout_trace (d : List Byte) : (s.putDout d).trace = s.trace := rfl
@[simp] theorem State.putDout_wire (d : List Byte) : (s.putDout d).wire = s.wire := rfl
@[simp] theorem State.putDout_chipMem (d : List Byte) : (s.putDout d).chipMem = s.chipMem := rfl
@[simp] theorem State.putDout_chip (d : List Byte) : (s.putDout d).chip = s.chip := rfl
@[simp] theorem State.putDout_drawn (d : List Byte) : (s.putDout d).drawn = s.drawn := rfl
@[simp] theorem State.putDout_inbox (d : List Byte) : (s.putDout d).inbox = s.inbox := rfl

/-! ## sample -/

@[simp] theorem State.sample_cfg (o : Operands) : (s.sample o).cfg = s.cfg := rfl
@[simp] theorem State.sample_req (o : Operands) : (s.sample o).req = s.req := rfl
@[simp] theorem State.sample_res (o : Operands) : (s.sample o).res = s.res := rfl
@[simp] theorem State.sample_resWritten (o : Operands) : (s.sample o).resWritten = s.resWritten := rfl
@[simp] theorem State.sample_seg (o : Operands) : (s.sample o).seg = s.seg := rfl
@[simp] theorem State.sample_segWritten (o : Operands) : (s.sample o).segWritten = s.segWritten := rfl
@[simp] theorem State.sample_csOe (o : Operands) : (s.sample o).csOe = s.csOe := rfl
@[simp] theorem State.sample_csn (o : Operands) : (s.sample o).csn = s.csn := rfl
@[simp] theorem State.sample_din (o : Operands) : (s.sample o).din = s.din := rfl
@[simp] theorem State.sample_dout (o : Operands) : (s.sample o).dout = s.dout := rfl
@[simp] theorem State.sample_seq (o : Operands) : (s.sample o).seq = s.seq := rfl
@[simp] theorem State.sample_opnd (o : Operands) : (s.sample o).opnd = o := rfl
@[simp] theorem State.sample_ptr (o : Operands) : (s.sample o).ptr = s.ptr := rfl
@[simp] theorem State.sample_vprev (o : Operands) : (s.sample o).vprev = s.vprev := rfl
@[simp] theorem State.sample_k (o : Operands) : (s.sample o).k = s.k := rfl
@[simp] theorem State.sample_trace (o : Operands) : (s.sample o).trace = s.trace := rfl
@[simp] theorem State.sample_wire (o : Operands) : (s.sample o).wire = s.wire := rfl
@[simp] theorem State.sample_chipMem (o : Operands) : (s.sample o).chipMem = s.chipMem := rfl
@[simp] theorem State.sample_chip (o : Operands) : (s.sample o).chip = s.chip := rfl
@[simp] theorem State.sample_drawn (o : Operands) : (s.sample o).drawn = s.drawn := rfl
@[simp] theorem State.sample_inbox (o : Operands) : (s.sample o).inbox = s.inbox := rfl

/-! ## takeReq -/

@[simp] theorem State.takeReq_cfg : s.takeReq.cfg = s.cfg := rfl
@[simp] theorem State.takeReq_req : s.takeReq.req = none := rfl
@[simp] theorem State.takeReq_res : s.takeReq.res = s.res := rfl
@[simp] theorem State.takeReq_resWritten : s.takeReq.resWritten = s.resWritten := rfl
@[simp] theorem State.takeReq_seg : s.takeReq.seg = s.seg := rfl
@[simp] theorem State.takeReq_segWritten : s.takeReq.segWritten = s.segWritten := rfl
@[simp] theorem State.takeReq_csOe : s.takeReq.csOe = s.csOe := rfl
@[simp] theorem State.takeReq_csn : s.takeReq.csn = s.csn := rfl
@[simp] theorem State.takeReq_din : s.takeReq.din = s.din := rfl
@[simp] theorem State.takeReq_dout : s.takeReq.dout = s.dout := rfl
@[simp] theorem State.takeReq_seq : s.takeReq.seq = s.seq := rfl
@[simp] theorem State.takeReq_opnd : s.takeReq.opnd = s.opnd := rfl
@[simp] theorem State.takeReq_ptr : s.takeReq.ptr = s.ptr := rfl
@[simp] theorem State.takeReq_vprev : s.takeReq.vprev = s.vprev := rfl
@[simp] theorem State.takeReq_k : s.takeReq.k = s.k := rfl
@[simp] theorem State.takeReq_trace : s.takeReq.trace = s.trace := rfl
@[simp] theorem State.takeReq_wire : s.takeReq.wire = s.wire := rfl
@[simp] theorem State.takeReq_chipMem : s.takeReq.chipMem = s.chipMem := rfl
@[simp] theorem State.takeReq_chip : s.takeReq.chip = s.chip := rfl
@[simp] theorem State.takeReq_drawn : s.takeReq.drawn = s.drawn := rfl
@[simp] theorem State.takeReq_inbox : s.takeReq.inbox = s.inbox := rfl

/-! ## did -/

@[simp] theorem State.did_cfg (ts : List Txn) : (s.did ts).cfg = s.cfg := rfl
@[simp] theorem State.did_req (ts : List Txn) : (s.did ts).req = s.req := rfl
@[simp] theorem State.did_res (ts : List Txn) : (s.did ts).res = s.res := rfl
@[simp] theorem State.did_resWritten (ts : List Txn) : (s.did ts).resWritten = s.resWritten := rfl
@[simp] theorem State.did_seg (ts : List Txn) : (s.did ts).seg = s.seg := rfl
@[simp] theorem State.did_segWritten (ts : List Txn) : (s.did ts).segWritten = s.segWritten := rfl
@[simp] theorem State.did_csOe (ts : List Txn) : (s.did ts).csOe = s.csOe := rfl
@[simp] theorem State.did_csn (ts : List Txn) : (s.did ts).csn = s.csn := rfl
@[simp] theorem State.did_din (ts : List Txn) : (s.did ts).din = s.din := rfl
@[simp] theorem State.did_dout (ts : List Txn) : (s.did ts).dout = s.dout := rfl
@[simp] theorem State.did_seq (ts : List Txn) : (s.did ts).seq = s.seq := rfl
@[simp] theorem State.did_opnd (ts : List Txn) : (s.did ts).opnd = s.opnd := rfl
@[simp] theorem State.did_ptr (ts : List Txn) : (s.did ts).ptr = s.ptr := rfl
@[simp] theorem State.did_vprev (ts : List Txn) : (s.did ts).vprev = s.vprev := rfl
@[simp] theorem State.did_k (ts : List Txn) : (s.did ts).k = s.k := rfl
@[simp] theorem State.did_trace (ts : List Txn) : (s.did ts).trace = s.trace ++ ts := rfl
@[simp] theorem State.did_wire (ts : List Txn) : (s.did ts).wire = s.wire ++ wireOf s.cfg.dummy ts := rfl
@[simp] theorem State.did_chipMem (ts : List Txn) : (s.did ts).chipMem = memAfter ts s.chipMem := rfl
@[simp] theorem State.did_chip (ts : List Txn) : (s.did ts).chip = s.chip := rfl
@[simp] theorem State.did_drawn (ts : List Txn) : (s.did ts).drawn = s.drawn := rfl
@[simp] theorem State.did_inbox (ts : List Txn) : (s.did ts).inbox = s.inbox := rfl

/-! ## drew -/

@[simp] theorem State.drew_cfg (n : Nat) : (s.drew n).cfg = s.cfg := rfl
@[simp] theorem State.drew_req (n : Nat) : (s.drew n).req = s.req := rfl
@[simp] theorem State.drew_res (n : Nat) : (s.drew n).res = s.res := rfl
@[simp] theorem State.drew_resWritten (n : Nat) : (s.drew n).resWritten = s.resWritten := rfl
@[simp] theorem State.drew_seg (n : Nat) : (s.drew n).seg = s.seg := rfl
@[simp] theorem State.drew_segWritten (n : Nat) : (s.drew n).segWritten = s.segWritten := rfl
@[simp] theorem State.drew_csOe (n : Nat) : (s.drew n).csOe = s.csOe := rfl
@[simp] theorem State.drew_csn (n : Nat) : (s.drew n).csn = s.csn := rfl
@[simp] theorem State.drew_din (n : Nat) : (s.drew n).din = s.din := rfl
@[simp] theorem State.drew_dout (n : Nat) : (s.drew n).dout = s.dout := rfl
@[simp] theorem State.drew_seq (n : Nat) : (s.drew n).seq = s.seq := rfl
@[simp] theorem State.drew_opnd (n : Nat) : (s.drew n).opnd = s.opnd := rfl
@[simp] theorem State.drew_ptr (n : Nat) : (s.drew n).ptr = s.ptr := rfl
@[simp] theorem State.drew_vprev (n : Nat) : (s.drew n).vprev = s.vprev := rfl
@[simp] theorem State.drew_k (n : Nat) : (s.drew n).k = s.k := rfl
@[simp] theorem State.drew_trace (n : Nat) : (s.drew n).trace = s.trace := rfl
@[simp] theorem State.drew_wire (n : Nat) : (s.drew n).wire = s.wire := rfl
@[simp] theorem State.drew_chipMem (n : Nat) : (s.drew n).chipMem = s.chipMem := rfl
@[simp] theorem State.drew_chip (n : Nat) : (s.drew n).chip = s.chip.drop n := rfl
@[simp] theorem State.drew_drawn (n : Nat) : (s.drew n).drawn = s.drawn + (n - s.chip.length) := rfl
@[simp] theorem State.drew_inbox (n : Nat) : (s.drew n).inbox = s.inbox := rfl

end Sys2Proof.Machine
end

