-- ==== Sys2Proof/Laws/Ops.lean ====
section
/-! SUPPORT. For each shared operation, one lemma that says everything it can do. -/

namespace Sys2Proof.Machine

/-! ## Records and draws -/

@[simp] theorem wireOf_nil (b : Byte) : wireOf b [] = [] := rfl

theorem wireOf_append (b : Byte) (x y : List Txn) : wireOf b (x ++ y) = wireOf b x ++ wireOf b y := by
  simp [wireOf]

@[simp] theorem State.did_nil (s : State) : s.did [] = s := by simp [State.did]

/-- Transactions done one after the other. -/
theorem State.did_did (s : State) (x y : List Txn) : (s.did x).did y = s.did (x ++ y) := by
  simp [State.did, wireOf_append, memAfter_append]

@[simp] theorem envBytes_length (n : Nat) (c : List Byte) (k : Nat) : (envBytes n c k).length = n := by
  induction n generalizing c k with
  | zero => rfl
  | succ n ih => cases c <;> simp [envBytes, ih]

@[simp] theorem State.nextBytes_length (s : State) (n : Nat) : (s.nextBytes n).length = n := envBytes_length _ _ _

theorem envBytes_add (m n : Nat) (c : List Byte) (k : Nat) :
    envBytes (m + n) c k = envBytes m c k ++ envBytes n (c.drop m) (k + (m - c.length)) := by
  induction m generalizing c k with
  | zero => simp [envBytes]
  | succ m ih =>
    cases c with
    | nil => simp [Nat.succ_add, envBytes, ih, Nat.add_assoc]
    | cons b c => simp [Nat.succ_add, envBytes, ih]

/-- The next `m + n` bytes are the next `m`, then the next `n` after those. -/
theorem State.nextBytes_add (s : State) (m n : Nat) : s.nextBytes (m + n) = s.nextBytes m ++ (s.drew m).nextBytes n :=
  envBytes_add m n s.chip s.drawn

/-- A script that is long enough is what the chip answers. -/
theorem State.nextBytes_script (s : State) (d rest : List Byte) (h : s.chip = d ++ rest) : s.nextBytes d.length = d := by
  suffices hs : ∀ (d rest : List Byte) (k : Nat), envBytes d.length (d ++ rest) k = d by
    rw [State.nextBytes, h]; exact hs d rest s.drawn
  intro d
  induction d with
  | nil => intro rest k; rfl
  | cons b d ih => intro rest k; simp [envBytes, ih]

@[simp] theorem State.drew_zero (s : State) : s.drew 0 = s := by simp [State.drew]

theorem State.drew_drew (s : State) (m n : Nat) : (s.drew m).drew n = s.drew (m + n) := by
  simp only [State.drew, List.drop_drop, List.length_drop, State.mk.injEq, true_and, and_true]
  omega

@[simp] theorem State.nextBytes_did (s : State) (ts : List Txn) (n : Nat) : (s.did ts).nextBytes n = s.nextBytes n := rfl

theorem State.did_drew (s : State) (ts : List Txn) (n : Nat) : (s.did ts).drew n = (s.drew n).did ts := rfl

/-! ## The wires -/

/-- Exchanges whose answer is ignored only show on the wires. -/
theorem State.shiftAll_eq (bs : List Byte) (s : State) : s.shiftAll bs = { s with wire := s.wire ++ bs.map .out } := by
  induction bs generalizing s with
  | nil => simp [State.shiftAll]
  | cons b bs ih => simp [State.shiftAll, ih, State.shiftOut]

/-- The data phase of a read: the next bytes come in, DUMMY goes out. -/
theorem State.shiftIn_eq (n : Nat) (s : State) :
    s.shiftIn n = (s.nextBytes n, { s.drew n with wire := s.wire ++ List.replicate n (.out s.cfg.dummy) }) := by
  induction n generalizing s with
  | zero => simp [State.shiftIn, State.nextBytes, envBytes, State.drew]
  | succ n ih =>
    rw [State.shiftIn, ih]
    cases h : s.chip with
    | nil =>
      simp only [State.nextBytes, envBytes, State.draw, State.shiftOut, State.drew, h, List.drop_nil, List.length_nil,
        Nat.sub_zero, List.append_assoc, List.replicate_succ, List.singleton_append, Prod.mk.injEq, State.mk.injEq, true_and,
        and_true]
      omega
    | cons b rest =>
      simp [State.nextBytes, envBytes, State.draw, State.shiftOut, State.drew, h, List.replicate_succ]

/-- BusWrite: chip-select is released and one write transaction is done (R146). -/
theorem busWrite_eq (a : Word) (c : Byte) (d : List Byte) (s : State) :
    busWrite a c d s = { s with csn := true }.did [.w a c d] := by
  simp [busWrite, State.shiftAll_eq, State.csFall, State.csRise, State.deliver, State.log, State.did, wireOf, Txn.onWire,
    memAfter, Txn.store]

/-- BusRead: the next bytes are read, chip-select is released and one read transaction is done (R147). -/
theorem busRead_eq (a : Word) (c : Byte) (n : Nat) (s : State) :
    busRead a c n s = (s.nextBytes n, { s.drew n with csn := true }.did [.r a c (s.nextBytes n)]) := by
  have h : ∀ w b, ({ s with wire := w, csn := b } : State).nextBytes n = s.nextBytes n := fun _ _ => rfl
  simp [busRead, State.shiftAll_eq, State.shiftIn_eq, State.csFall, State.csRise, State.log, State.did, wireOf, Txn.onWire,
    memAfter, Txn.store, State.drew, h]

/-! ## Register accesses (R177) -/

theorem snWr1_eq (sock : Sock) (off : Word) (b : Byte) (s : State) :
    snWr1 sock off b s = { s with csn := true }.did [.w (regAddr s.cfg sock off) (wrCtl sock) [b]] := busWrite_eq _ _ _ _

theorem snWr2_eq (sock : Sock) (off v : Word) (s : State) :
    snWr2 sock off v s = { s with csn := true }.did [.w (regAddr s.cfg sock off) (wrCtl sock) (bytesOfWord v)] :=
  busWrite_eq _ _ _ _

theorem snRd1_eq (sock : Sock) (off : Word) (s : State) :
    snRd1 sock off s = (byteOfBytes (s.nextBytes 1),
      { s.drew 1 with csn := true }.did [.r (regAddr s.cfg sock off) (rdCtl sock) (s.nextBytes 1)]) := by
  rw [snRd1, busRead_eq]

theorem snRd2_eq (sock : Sock) (off : Word) (s : State) :
    snRd2 sock off s = (wordOfBytes (s.nextBytes 2),
      { s.drew 2 with csn := true }.did [.r (regAddr s.cfg sock off) (rdCtl sock) (s.nextBytes 2)]) := by
  rw [snRd2, busRead_eq]

/-! ## The ring procedures (R213) -/

/-- How many bytes a list of pieces covers. -/
def totalLen (ps : List (Nat × Nat)) : Nat := (ps.map Prod.snd).sum

@[simp] theorem totalLen_nil : totalLen [] = 0 := rfl

@[simp] theorem totalLen_cons (p : Nat × Nat) (ps : List (Nat × Nat)) : totalLen (p :: ps) = p.2 + totalLen ps := by
  simp [totalLen]

/-- The pieces of a translation cover the length (R195). -/
theorem totalLen_xlate {p n S B : Nat} (hS : 0 < S) : totalLen (xlate p n S B) = n := by
  have := Nat.mod_lt p hS
  unfold xlate
  simp only
  split <;> simp
  omega

theorem xlate_ne_nil (p n S B : Nat) : xlate p n S B ≠ [] := by
  unfold xlate
  simp only
  split <;> simp

theorem readPieces_eq (ctl : Byte) (ps : List (Nat × Nat)) (s : State) (hc : s.csn = true) :
    readPieces ctl ps s = (s.nextBytes (totalLen ps), (s.drew (totalLen ps)).did (readTxns ctl ps (s.nextBytes (totalLen ps)))) := by
  induction ps generalizing s with
  | nil => simp [readPieces, State.nextBytes, envBytes, readTxns]
  | cons p ps ih =>
    have hs : ({ s.drew p.2 with csn := true } : State) = s.drew p.2 := by simp [State.drew, hc]
    have hl : (s.nextBytes p.2).length = p.2 := s.nextBytes_length _
    simp only [readPieces, busRead_eq, hs]
    rw [ih _ (by simpa using hc)]
    have ht : (s.nextBytes p.2 ++ (s.drew p.2).nextBytes (totalLen ps)).take p.2 = s.nextBytes p.2 := by
      rw [List.take_append_of_le_length (by omega), List.take_of_length_le (by omega)]
    have hd : (s.nextBytes p.2 ++ (s.drew p.2).nextBytes (totalLen ps)).drop p.2 = (s.drew p.2).nextBytes (totalLen ps) := by
      rw [List.drop_append_of_le_length (by omega), List.drop_of_length_le (by omega), List.nil_append]
    simp only [totalLen_cons, State.nextBytes_add, State.nextBytes_did, State.did_drew, State.did_did, State.drew_drew, readTxns,
      ht, hd, List.singleton_append]

theorem writePieces_eq (ctl : Byte) (d : List Byte) (ps : List (Nat × Nat)) (s : State) (hc : s.csn = true) :
    writePieces ctl d ps s = (s.did (writeTxns ctl ps (d.drop s.k))).setK (s.k + totalLen ps) := by
  induction ps generalizing s with
  | nil => simp [writePieces, writeTxns, State.setK]
  | cons p ps ih =>
    have hs : ({ s with csn := true } : State) = s := by cases s; simp_all
    rw [writePieces, busWrite_eq, hs, ih _ (by simpa using hc)]
    simp only [State.setK, State.did, writeTxns, totalLen_cons, List.drop_drop, Nat.add_assoc, List.append_assoc,
      List.singleton_append, memAfter_cons, memAfter_nil]
    rw [← wireOf_append, List.singleton_append]

/-- RingRead (R213): the bytes read, the segment registers, the transactions. -/
theorem ringRead_eq (sock : Sock) (p len : Word) (s : State) (hc : s.csn = true) :
    ringRead sock p len.toNat s = (s.nextBytes len.toNat,
      ((s.drew len.toNat).setSegs (rxPieces s.cfg sock p len) (s.cfg.rxBase sock).toNat).did
        (readTxns (snCtl sock s.cfg.bankRx false) (rxPieces s.cfg sock p len) (s.nextBytes len.toNat))) := by
  have ht : totalLen (rxPieces s.cfg sock p len) = len.toNat := totalLen_xlate (by decide)
  change readPieces _ (rxPieces s.cfg sock p len) (s.setSegs (rxPieces s.cfg sock p len) (s.cfg.rxBase sock).toNat) = _
  rw [readPieces_eq _ _ _ (by simpa using hc), ht]
  rfl

/-- RingWrite (R213): the segment registers, the transactions, and `k` at the end of the data. -/
theorem ringWrite_eq (sock : Sock) (p : Word) (d : List Byte) (s : State) (hc : s.csn = true) :
    ringWrite sock p d s =
      ((s.setSegs (xlate p.toNat d.length Config.ssize (s.cfg.txBase sock).toNat) (s.cfg.txBase sock).toNat).did
        (writeTxns (snCtl sock s.cfg.bankTx true) (xlate p.toNat d.length Config.ssize (s.cfg.txBase sock).toNat) d)).setK
          d.length := by
  rw [ringWrite, writePieces_eq _ _ _ _ (by simpa using hc), totalLen_xlate (by decide)]
  simp [State.setK, State.setSegs, State.did]

/-! ## Acceptance and refusal -/

/-- A list of tests is passed when every one is. -/
theorem firstRefusal_none {cs : List (Bool × Refusal)} : firstRefusal cs = none ↔ ∀ c ∈ cs, c.1 = false := by
  induction cs with
  | nil => simp [firstRefusal]
  | cons c cs ih =>
    obtain ⟨b, r⟩ := c
    cases b <;> simp [firstRefusal, ih]

/-- What `guarded` can answer with a next state. -/
theorem guarded_next {cs : List (Bool × Refusal)} {s t : State} {e : State → State} :
    guarded cs s e = .next t ↔ (∀ c ∈ cs, c.1 = false) ∧ t = e s := by
  rw [← firstRefusal_none, guarded]
  cases firstRefusal cs <;> simp [eq_comm]

/-- What `onBus` can answer with a next state. -/
theorem onBus_next {cs : List (Bool × Refusal)} {s t : State} {e : State → State} :
    onBus cs s e = .next t ↔ s.csOe = true ∧ s.csn = true ∧ (∀ c ∈ cs, c.1 = false) ∧ t = e s := by
  rw [onBus, firstRefusal, ← firstRefusal_none]
  cases s.csOe <;> cases firstRefusal cs <;> cases s.csn <;> simp [eq_comm]

/-- `onBus` faults only where chip-select is low. -/
theorem onBus_fault {cs : List (Bool × Refusal)} {s : State} {e : State → State} {f : Fault} (h : onBus cs s e = .fault f) :
    s.csn = false := by
  rw [onBus] at h
  split at h
  · simp at h
  · cases hc : s.csn
    · rfl
    · simp [hc] at h

/-- What a request without bus activity can answer with a next state. -/
theorem request_next {i : Instr} {cs : List (Bool × Refusal)} {s t : State} {e : State → State} :
    request i cs s e = .next t ↔
      (s.busy = true ∧ t = s) ∨ (s.busy = false ∧ (∀ c ∈ cs, c.1 = false) ∧ t = e (s.sample (fieldsOf i))) := by
  rw [request, ← guarded_next (s := s) (t := t) (e := fun u => e (u.sample (fieldsOf i)))]
  cases s.busy <;> simp [@eq_comm _ s t]

/-- What a request with bus activity can answer with a next state. -/
theorem busRequest_next {i : Instr} {cs : List (Bool × Refusal)} {s t : State} {e : State → State} :
    busRequest i cs s e = .next t ↔
      (s.busy = true ∧ t = s) ∨
      (s.busy = false ∧ s.csOe = true ∧ s.csn = true ∧ (∀ c ∈ cs, c.1 = false) ∧ t = e (s.sample (fieldsOf i))) := by
  rw [busRequest, ← onBus_next (s := s) (t := t) (e := fun u => e (u.sample (fieldsOf i)))]
  cases s.busy <;> simp [@eq_comm _ s t]

theorem State.busy_eq_false {s : State} : s.busy = false ↔ s.seq = .idle := by
  simp [State.busy]

/-- A ready state takes the effect of a bus request whose tests it passes. -/
theorem busRequest_ready {i : Instr} {cs : List (Bool × Refusal)} {s : State} {e : State → State} (h : s.Ready)
    (hc : ∀ c ∈ cs, c.1 = false) : busRequest i cs s e = .next (e (s.sample (fieldsOf i))) :=
  busRequest_next.mpr (.inr ⟨State.busy_eq_false.mpr h.1, h.2.1, h.2.2, hc, rfl⟩)

/-! ## The loops (R242, R246) -/

/-- One poll of the command register (R244). -/
theorem pollCommand_eq (s : State) (hc : s.csn = true) :
    pollCommand s = ((s.drew 1).did [.r (regAddr s.cfg s.sock s.cfg.offCr) (rdCtl s.sock) (s.nextBytes 1)]).setSeq
      (if byteOfBytes (s.nextBytes 1) == 0 then .idle else .execPoll) := by
  have hs : ({ s.drew 1 with csn := true } : State) = s.drew 1 := by simp [State.drew, hc]
  simp only [pollCommand, snRd1_eq, hs]

/-- One compare read (R246). -/
theorem compareRead_eq (off : Word) (again : Seq) (s : State) (hc : s.csn = true) :
    compareRead off again s =
      let v := wordOfBytes (s.nextBytes 2)
      let t := (s.drew 2).did [.r (regAddr s.cfg s.sock off) (rdCtl s.sock) (s.nextBytes 2)]
      if v == s.vprev then (t.setRes v).setSeq .idle else (t.setVprev v).setSeq again := by
  have hs : ({ s.drew 2 with csn := true } : State) = s.drew 2 := by simp [State.drew, hc]
  simp only [compareRead, snRd2_eq, hs]

/-- What RBAT's turn inside a loop can answer with a next state: one poll of EXEC, or one compare read of TXFREE or RXSIZE. -/
theorem rbatTurn_inLoop_next {s t : State} (h : s.InLoop) :
    rbatTurn s = .next t ↔ s.csOe = true ∧ s.csn = true ∧
      ((s.seq = .execPoll ∧ t = pollCommand s) ∨
        (s.seq = .txfreeRead ∧ t = compareRead s.cfg.offTxFsr .txfreeRead s) ∨
        (s.seq = .rxsizeRead ∧ t = compareRead s.cfg.offRxRsr .rxsizeRead s)) := by
  rcases h with h | h | h <;> simp [rbatTurn, fetch, h, continueExec, continueTxfree, continueRxsize, onBus_next]

/-- One poll changes TRACE, the wires, the chip's answers and SEQ only. -/
theorem pollCommand_frame (s : State) (hc : s.csn = true) :
    pollCommand s = { s with
      trace := (pollCommand s).trace
      wire := (pollCommand s).wire
      chip := (pollCommand s).chip
      drawn := (pollCommand s).drawn
      seq := (pollCommand s).seq } := by
  rw [pollCommand_eq s hc]
  rfl

/-- One compare read changes TRACE, the wires, the chip's answers, SEQ, and either RES or VPREV. -/
theorem compareRead_frame (off : Word) (again : Seq) (s : State) (hc : s.csn = true) :
    compareRead off again s = { s with
      trace := (compareRead off again s).trace
      wire := (compareRead off again s).wire
      chip := (compareRead off again s).chip
      drawn := (compareRead off again s).drawn
      seq := (compareRead off again s).seq
      res := (compareRead off again s).res
      resWritten := (compareRead off again s).resWritten
      vprev := (compareRead off again s).vprev } := by
  rw [compareRead_eq off again s hc]
  simp only
  split <;> rfl

end Sys2Proof.Machine
end

