-- ==== Sys2Proof/Laws/PerInstr.lean ====
section
/-! SUPPORT. Statements made once for each instruction: its encoding satisfies its row of the opcode table. -/

namespace Sys2Proof.Laws.RowMatch

/-- Width, fixed bits and mask of each row as spec/opcode_table.json prints them (30_encoding R104, R113). -/
def row : Instr → Nat × Nat × Nat
  | .init => (64, 0x0100000000000000, 0xFFFFFFFFFFFFFFFF)
  | .wr1 _ _ _ => (64, 0x0200000000000000, 0xFF000000FFFFFF00)
  | .wrn _ _ _ => (64, 0x0300000000000000, 0xFF0000000000FFFF)
  | .rd1 _ _ => (64, 0x0400000000000000, 0xFF000000FFFFFFFF)
  | .rdn _ _ _ => (64, 0x0500000000000000, 0xFF0000000000FFFF)
  | .snwr1 _ _ _ => (64, 0x0600000000000000, 0xFF1F0000FFFFFF00)
  | .snrd1 _ _ => (64, 0x0700000000000000, 0xFF1F0000FFFFFFFF)
  | .snwr2 _ _ _ => (64, 0x0800000000000000, 0xFF1F0000FFFF0000)
  | .snrd2 _ _ => (64, 0x0900000000000000, 0xFF1F0000FFFFFFFF)
  | .xlate _ _ _ => (64, 0x0A00000000000000, 0xFFFF000000000000)
  | .rddata _ _ _ => (64, 0x0B00000000000000, 0xFF1F00000000FFFF)
  | .send _ _ => (64, 0x0C00000000000000, 0xFF1FFFFF0000FFFF)
  | .sendofs _ _ _ => (64, 0x0D00000000000000, 0xFF1F00000000FFFF)
  | .recv _ _ _ => (64, 0x0E00000000000000, 0xFF0FFFFF0000FFFF)
  | .execCmd _ _ => (64, 0x0F00000000000000, 0xFF1FFFFFFFFFFF00)
  | .txfree _ => (64, 0x1000000000000000, 0xFF1FFFFFFFFFFFFF)
  | .rxsize _ => (64, 0x1100000000000000, 0xFF1FFFFFFFFFFFFF)
  | .fRdGen _ => (24, 0x000000, 0x0000FF)
  | .fWrGen _ => (24, 0x000004, 0x0000FF)
  | .fRdSreg _ _ => (24, 0x000008, 0x00001F)
  | .fWrSreg _ _ => (24, 0x00000C, 0x00001F)
  | .fWrTxb _ _ => (24, 0x000014, 0x00001F)
  | .fRdRxb _ _ => (24, 0x000018, 0x00001F)

/-- The encoding has the row's width and the row's fixed bits. -/
def Statement (i : Instr) : Prop :=
  (encode i).1 = (row i).1 ∧ (encode i).2 &&& (row i).2.2 = (row i).2.1

/-- A request whose masked fields are those of the fixed bits satisfies its row. -/
theorem of_fields {i : Instr} (m f : Operands) (hn : encodeFrame Cfg.ref i = none) (h1 : (row i).1 = 64)
    (hm : (row i).2.2 = (joinWord m).toNat) (hf : (row i).2.1 = (joinWord f).toNat)
    (h : (⟨(fieldsOf i).op &&& m.op, (fieldsOf i).sel &&& m.sel, (fieldsOf i).addr &&& m.addr, (fieldsOf i).len &&& m.len,
      (fieldsOf i).dat &&& m.dat⟩ : Operands) = f) : Statement i := by
  simp only [Statement, encode, hn, h1, hm, hf, encodeReq, true_and]
  rw [← BitVec.toNat_and, joinWord_and, h]

/-- A frame whose masked control byte is the fixed bits satisfies its row. -/
theorem of_ctl {i : Instr} (a : Word) (c m f : Byte) (hp : frameParts Cfg.ref i = some (a, c)) (h1 : (row i).1 = 24)
    (hm : (row i).2.2 = m.toNat) (hf : (row i).2.1 = f.toNat) (h : c &&& m = f) : Statement i := by
  have he : encodeFrame Cfg.ref i = some (joinHeader a c) := by simp [encodeFrame, hp]
  simp only [Statement, encode, he, h1, hm, hf, true_and]
  rw [← h, BitVec.toNat_and, joinHeader, BitVec.toNat_append]
  have := m.isLt
  apply Nat.eq_of_testBit_eq
  intro j
  simp only [Nat.testBit_and, Nat.testBit_or, Nat.testBit_shiftLeft]
  by_cases hj : j < 8
  · simp [Nat.not_le.mpr hj]
  · have : m.toNat.testBit j = false :=
      Nat.testBit_lt_two_pow (Nat.lt_of_lt_of_le this (Nat.pow_le_pow_right (by decide) (by omega)))
    simp [this]

theorem selOf_plain (s : Sock) : selOf s false &&& 31#8 = 0#8 := by revert s; decide
theorem selOf_peekable (s : Sock) (p : Bool) : selOf s p &&& 15#8 = 0#8 := by revert s p; decide
theorem datOfByte_high (b : Byte) : datOfByte b &&& 65280#16 = 0#16 := by revert b; decide

theorem init : Statement .init :=
  of_fields ⟨0xFF, 0xFF, 0xFFFF, 0xFFFF, 0xFFFF⟩ ⟨0x01, 0, 0, 0, 0⟩ rfl rfl rfl rfl (by decide)
theorem wr1 (c : Byte) (a : Word) (d : Byte) : Statement (.wr1 c a d) :=
  of_fields ⟨0xFF, 0, 0, 0xFFFF, 0xFF00⟩ ⟨0x02, 0, 0, 0, 0⟩ rfl rfl rfl rfl (by simp [fieldsOf, datOfByte_high])
theorem wrn (c : Byte) (a n : Word) : Statement (.wrn c a n) :=
  of_fields ⟨0xFF, 0, 0, 0, 0xFFFF⟩ ⟨0x03, 0, 0, 0, 0⟩ rfl rfl rfl rfl (by simp [fieldsOf])
theorem rd1 (c : Byte) (a : Word) : Statement (.rd1 c a) :=
  of_fields ⟨0xFF, 0, 0, 0xFFFF, 0xFFFF⟩ ⟨0x04, 0, 0, 0, 0⟩ rfl rfl rfl rfl (by simp [fieldsOf])
theorem rdn (c : Byte) (a n : Word) : Statement (.rdn c a n) :=
  of_fields ⟨0xFF, 0, 0, 0, 0xFFFF⟩ ⟨0x05, 0, 0, 0, 0⟩ rfl rfl rfl rfl (by simp [fieldsOf])
theorem snwr1 (s : Sock) (o : Word) (d : Byte) : Statement (.snwr1 s o d) :=
  of_fields ⟨0xFF, 0x1F, 0, 0xFFFF, 0xFF00⟩ ⟨0x06, 0, 0, 0, 0⟩ rfl rfl rfl rfl
    (by simp [fieldsOf, selOf_plain, datOfByte_high])
theorem snrd1 (s : Sock) (o : Word) : Statement (.snrd1 s o) :=
  of_fields ⟨0xFF, 0x1F, 0, 0xFFFF, 0xFFFF⟩ ⟨0x07, 0, 0, 0, 0⟩ rfl rfl rfl rfl (by simp [fieldsOf, selOf_plain])
theorem snwr2 (s : Sock) (o d : Word) : Statement (.snwr2 s o d) :=
  of_fields ⟨0xFF, 0x1F, 0, 0xFFFF, 0⟩ ⟨0x08, 0, 0, 0, 0⟩ rfl rfl rfl rfl (by simp [fieldsOf, selOf_plain])
theorem snrd2 (s : Sock) (o : Word) : Statement (.snrd2 s o) :=
  of_fields ⟨0xFF, 0x1F, 0, 0xFFFF, 0xFFFF⟩ ⟨0x09, 0, 0, 0, 0⟩ rfl rfl rfl rfl (by simp [fieldsOf, selOf_plain])
theorem xlate (p n b : Word) : Statement (.xlate p n b) :=
  of_fields ⟨0xFF, 0xFF, 0, 0, 0⟩ ⟨0x0A, 0, 0, 0, 0⟩ rfl rfl rfl rfl (by simp [fieldsOf])
theorem rddata (s : Sock) (a n : Word) : Statement (.rddata s a n) :=
  of_fields ⟨0xFF, 0x1F, 0, 0, 0xFFFF⟩ ⟨0x0B, 0, 0, 0, 0⟩ rfl rfl rfl rfl (by simp [fieldsOf, selOf_plain])
theorem send (s : Sock) (n : Word) : Statement (.send s n) :=
  of_fields ⟨0xFF, 0x1F, 0xFFFF, 0, 0xFFFF⟩ ⟨0x0C, 0, 0, 0, 0⟩ rfl rfl rfl rfl (by simp [fieldsOf, selOf_plain])
theorem sendofs (s : Sock) (o n : Word) : Statement (.sendofs s o n) :=
  of_fields ⟨0xFF, 0x1F, 0, 0, 0xFFFF⟩ ⟨0x0D, 0, 0, 0, 0⟩ rfl rfl rfl rfl (by simp [fieldsOf, selOf_plain])
theorem recv (s : Sock) (p : Bool) (n : Word) : Statement (.recv s p n) :=
  of_fields ⟨0xFF, 0x0F, 0xFFFF, 0, 0xFFFF⟩ ⟨0x0E, 0, 0, 0, 0⟩ rfl rfl rfl rfl (by simp [fieldsOf, selOf_peekable])
theorem execCmd (s : Sock) (c : Byte) : Statement (.execCmd s c) :=
  of_fields ⟨0xFF, 0x1F, 0xFFFF, 0xFFFF, 0xFF00⟩ ⟨0x0F, 0, 0, 0, 0⟩ rfl rfl rfl rfl
    (by simp [fieldsOf, selOf_plain, datOfByte_high])
theorem txfree (s : Sock) : Statement (.txfree s) :=
  of_fields ⟨0xFF, 0x1F, 0xFFFF, 0xFFFF, 0xFFFF⟩ ⟨0x10, 0, 0, 0, 0⟩ rfl rfl rfl rfl (by simp [fieldsOf, selOf_plain])
theorem rxsize (s : Sock) : Statement (.rxsize s) :=
  of_fields ⟨0xFF, 0x1F, 0xFFFF, 0xFFFF, 0xFFFF⟩ ⟨0x11, 0, 0, 0, 0⟩ rfl rfl rfl rfl (by simp [fieldsOf, selOf_plain])
theorem fRdGen (a : Word) : Statement (.fRdGen a) := of_ctl a _ 0xFF 0x00 rfl rfl rfl rfl (by decide)
theorem fWrGen (a : Word) : Statement (.fWrGen a) := of_ctl a _ 0xFF 0x04 rfl rfl rfl rfl (by decide)
theorem fRdSreg (a : Word) (s : Sock) : Statement (.fRdSreg a s) := of_ctl a _ 0x1F 0x08 rfl rfl rfl rfl (by revert s; decide)
theorem fWrSreg (a : Word) (s : Sock) : Statement (.fWrSreg a s) := of_ctl a _ 0x1F 0x0C rfl rfl rfl rfl (by revert s; decide)
theorem fWrTxb (a : Word) (s : Sock) : Statement (.fWrTxb a s) := of_ctl a _ 0x1F 0x14 rfl rfl rfl rfl (by revert s; decide)
theorem fRdRxb (a : Word) (s : Sock) : Statement (.fRdRxb a s) := of_ctl a _ 0x1F 0x18 rfl rfl rfl rfl (by revert s; decide)

end Sys2Proof.Laws.RowMatch
end

