-- ==== Sys2Proof/Laws/Ring.lean ====
section
/-! SUPPORT. The pieces of a split transfer (R192, R213): what the transactions of its pieces are, and where their bytes land. -/

namespace Sys2Proof.Machine

/-- Every transaction of a split read is a read with its control byte. -/
theorem mem_readTxns {ctl : Byte} {ps : List (Nat × Nat)} {bs : List Byte} {x : Txn} (h : x ∈ readTxns ctl ps bs) :
    x.ctl = ctl ∧ x.isWrite = false := by
  induction ps generalizing bs with
  | nil => simp [readTxns] at h
  | cons p ps ih =>
    rcases List.mem_cons.mp h with rfl | h
    · exact ⟨rfl, rfl⟩
    · exact ih h

/-- Every transaction of a split write is a write with its control byte. -/
theorem mem_writeTxns {ctl : Byte} {ps : List (Nat × Nat)} {bs : List Byte} {x : Txn} (h : x ∈ writeTxns ctl ps bs) :
    x.ctl = ctl ∧ x.isWrite = true := by
  induction ps generalizing bs with
  | nil => simp [writeTxns] at h
  | cons p ps ih =>
    rcases List.mem_cons.mp h with rfl | h
    · exact ⟨rfl, rfl⟩
    · exact ih h

/-- A split read moves the length of each piece (R69). -/
theorem readTxns_shape (ctl : Byte) (ps : List (Nat × Nat)) (bs : List Byte) (h : bs.length = totalLen ps) :
    (readTxns ctl ps bs).map (fun x => (x.isWrite, x.data.length)) = ps.map fun p => (false, p.2) := by
  induction ps generalizing bs with
  | nil => rfl
  | cons p ps ih =>
    simp only [totalLen_cons] at h
    simp only [readTxns, List.map_cons, ih (bs.drop p.2) (by simp [h])]
    simp [Txn.isWrite, Txn.data]
    omega

/-- A split write moves the length of each piece (R69). -/
theorem writeTxns_shape (ctl : Byte) (ps : List (Nat × Nat)) (bs : List Byte) (h : bs.length = totalLen ps) :
    (writeTxns ctl ps bs).map (fun x => (x.isWrite, x.data.length)) = ps.map fun p => (true, p.2) := by
  induction ps generalizing bs with
  | nil => rfl
  | cons p ps ih =>
    simp only [totalLen_cons] at h
    simp only [writeTxns, List.map_cons, ih (bs.drop p.2) (by simp [h])]
    simp [Txn.isWrite, Txn.data]
    omega

/-- Reads leave the chip space alone. -/
theorem memAfter_readTxns (ctl : Byte) (ps : List (Nat × Nat)) (bs : List Byte) (m : Memory) :
    memAfter (readTxns ctl ps bs) m = m := by
  induction ps generalizing bs with
  | nil => rfl
  | cons p ps ih => simp [readTxns, Txn.store, ih]

/-- A split write leaves every location outside its pieces alone (R66). -/
theorem read_writeTxns_outside (ctl : Byte) (ps : List (Nat × Nat)) (bs : List Byte) (m : Memory) (a : Nat)
    (hp : ∀ p ∈ ps, p.1 < 65536) (h : ∀ p ∈ ps, Run.misses (locOf ctl p.1, p.2) a) :
    Memory.read a (memAfter (writeTxns ctl ps bs) m) = Memory.read a m := by
  induction ps generalizing bs m with
  | nil => rfl
  | cons p ps ih =>
    simp only [writeTxns, memAfter_cons, Txn.store]
    rw [ih _ _ (fun q hq => hp q (by simp [hq])) (fun q hq => h q (by simp [hq]))]
    have h1 := hp p (by simp)
    have h2 := h p (by simp)
    simp only [Run.misses] at h2
    apply Memory.read_writeRun_outside
    rw [BitVec.toNat_ofNat, Nat.mod_eq_of_lt h1, List.length_take]
    omega

/-- The pieces of a translation lie in the buffer, which starts below the top of the address space. -/
theorem xlate_fst_lt {p n S B : Nat} (hS : 0 < S) (hB : B + S ≤ 65536) : ∀ q ∈ xlate p n S B, q.1 < 65536 := by
  have := Nat.mod_lt p hS
  intro q hq
  simp only [xlate] at hq
  split at hq <;> simp only [List.mem_cons, List.not_mem_nil, or_false] at hq
  · rcases hq with rfl | rfl <;> simp only <;> omega
  · subst hq
    simp only
    omega

end Sys2Proof.Machine
end

