-- ==== Sys2Proof/Tests/Slice0.lean ====
section
/-! SUPPORT. Tests. Every expected value is one the spec prints (95_test_vectors) or is worked out by hand from the rule a test
names; the witnesses show that the hypotheses of each obligation can be met, at the ends of their ranges where they have ends. -/

namespace Sys2Proof.Tests

open Sys2Proof
open Sys2Proof.Machine

/-! ## Helpers -/

/-- INIT has run; nothing else has. -/
def ready : State := { State.reset with csOe := true }

/-- INIT has run and the host has put these bytes into DIN. -/
def withDin (d : List Byte) : State := { ready with din := d }

/-- INIT has run and the chip will answer these bytes. -/
def answering (d : List Byte) : State := { ready with chip := d }

/-- INIT has run and EXEC of socket 3 stands at its poll. -/
def polling : State := { ready with seq := .execPoll, opnd := ⟨0x0F, 0x60, 0, 0, 0x0001⟩ }

/-- INIT has run and a size operation of socket 1 has read 0x0064 last. -/
def comparing (q : Seq) (op : Byte) : State := { ready with seq := q, opnd := ⟨op, 0x20, 0, 0, 0⟩, vprev := 0x0064 }

/-- INIT has run and one transaction is due. -/
def due (h : Header) (d : List Byte) (n : Nat) : State := { ready with seq := .xfer h d n }

/-- The next state of an answer. -/
def nextOf : Result → Option State
  | .next t => some t
  | .fault _ => none
  | .refused _ => none

/-- The reason of a refusal. -/
def reasonOf : Result → Option Refusal
  | .next _ => none
  | .fault _ => none
  | .refused r => some r

/-- What an answer leaves in one field. -/
def leaves {α : Type} (f : State → α) (r : Result) : Option α := (nextOf r).map f

/-- The four segment registers. -/
def segRegs (s : State) : Word × Word × Word × Word := (s.seg.seg1a, s.seg.seg1l, s.seg.seg2a, s.seg.seg2l)

/-! ## Well-formed terms: one ill-formed term for each check -/

/-- R152: CTL[1:0] must be 00. -/
theorem test_wf_refuses_ctl_width : (Instr.wr1 0x05 0x0000 0x80).wellFormed = false := by decide
/-- R152: a write needs CTL[2] = 1. -/
theorem test_wf_refuses_write_with_read_control : (Instr.wr1 0x00 0x0000 0x80).wellFormed = false := by decide
/-- R152: a read needs CTL[2] = 0. -/
theorem test_wf_refuses_read_with_write_control : (Instr.rd1 0x04 0x0000).wellFormed = false := by decide
/-- R152: the general bank has no socket. -/
theorem test_wf_refuses_ctl_bank : (Instr.wr1 0x24 0x0000 0x80).wellFormed = false := by decide
/-- R153: a raw run of no bytes. -/
theorem test_wf_refuses_empty_run : (Instr.rdn 0x00 0x0000 0).wellFormed = false := by decide
/-- R67, R152: a run past chip address 0xFFFF, and the longest one that is not. -/
theorem test_wf_refuses_run_past_the_top :
    (Instr.wrn 0x04 0xFFFF 2).wellFormed = false ∧ (Instr.wrn 0x04 0xFFFE 2).wellFormed = true := by decide
/-- R211: a transfer of no bytes. -/
theorem test_wf_refuses_empty_transfer : (Instr.send 0 0).wellFormed = false := by decide
/-- R211: a transfer of more than the buffer, and one of the whole buffer. -/
theorem test_wf_refuses_transfer_over_buffer :
    (Instr.recv 0 false 2049).wellFormed = false ∧ (Instr.recv 0 false 2048).wellFormed = true := by decide
/-- R197: XLATE of more than the buffer; of nothing is well-formed. -/
theorem test_wf_refuses_xlate_over_buffer :
    (Instr.xlate 2000 2049 0).wellFormed = false ∧ (Instr.xlate 0 0 0xF800).wellFormed = true := by decide
/-- R197: XLATE of a buffer past the top of the address space. -/
theorem test_wf_refuses_base_past_the_top : (Instr.xlate 2000 100 0xF801).wellFormed = false := by decide

/-! ## Decoding: words written out in 95_test_vectors 2.1 -/

/-- R101, R104: init. -/
theorem test_decode_init : decodeReq 0x0100000000000000 = .instr .init := by decide
/-- R101, R104: wr1. -/
theorem test_decode_wr1 :
    decodeReq 0x0204000000000080 = .instr (.wr1 0x04 0x0000 0x80) ∧
    decodeReq 0x02340FD0000000AA = .instr (.wr1 0x34 0x0FD0 0xAA) := by decide
/-- R101, R104: wrn. -/
theorem test_decode_wrn : decodeReq 0x0304000900040000 = .instr (.wrn 0x04 0x0009 4) := by decide
/-- R101, R104: rd1. -/
theorem test_decode_rd1 : decodeReq 0x0400000000000000 = .instr (.rd1 0x00 0x0000) := by decide
/-- R101, R104: rdn. -/
theorem test_decode_rdn :
    decodeReq 0x0500000900060000 = .instr (.rdn 0x00 0x0009 6) ∧
    decodeReq 0x0538080000040000 = .instr (.rdn 0x38 0x0800 4) := by decide
/-- R101, R104: snwr1. -/
theorem test_decode_snwr1 : decodeReq 0x0660000100000001 = .instr (.snwr1 3 0x0001 0x01) := by decide
/-- R101, R104: snrd1. -/
theorem test_decode_snrd1 : decodeReq 0x0760000300000000 = .instr (.snrd1 3 0x0003) := by decide
/-- R101, R104: snwr2. -/
theorem test_decode_snwr2 :
    decodeReq 0x080000240000003C = .instr (.snwr2 0 0x0024 0x003C) ∧
    decodeReq 0x08A0002800001234 = .instr (.snwr2 5 0x0028 0x1234) := by decide
/-- R101, R104: snrd2. -/
theorem test_decode_snrd2 : decodeReq 0x09E0002600000000 = .instr (.snrd2 7 0x0026) := by decide
/-- R101, R104: xlate. -/
theorem test_decode_xlate : decodeReq 0x0A0007D000641800 = .instr (.xlate 2000 100 0x1800) := by decide
/-- R101, R104: rddata. -/
theorem test_decode_rddata :
    decodeReq 0x0B2007D000640000 = .instr (.rddata 1 2000 100) ∧
    decodeReq 0x0BE0FFFF00020000 = .instr (.rddata 7 0xFFFF 2) := by decide
/-- R101, R104: send. -/
theorem test_decode_send :
    decodeReq 0x0C00000000040000 = .instr (.send 0 4) ∧
    decodeReq 0x0C00000008000000 = .instr (.send 0 2048) := by decide
/-- R101, R104: sendofs. -/
theorem test_decode_sendofs :
    decodeReq 0x0D400000000A0000 = .instr (.sendofs 2 0 10) ∧
    decodeReq 0x0D40FFFE001E0000 = .instr (.sendofs 2 0xFFFE 30) := by decide
/-- R101, R104: recv. -/
theorem test_decode_recv :
    decodeReq 0x0E20000000640000 = .instr (.recv 1 false 100) ∧
    decodeReq 0x0E30000000640000 = .instr (.recv 1 true 100) ∧
    decodeReq 0x0E80000008000000 = .instr (.recv 4 false 2048) ∧
    decodeReq 0x0E90000000010000 = .instr (.recv 4 true 1) := by decide
/-- R101, R104: execCmd. -/
theorem test_decode_execCmd :
    decodeReq 0x0F00000000000020 = .instr (.execCmd 0 0x20) ∧
    decodeReq 0x0FE0000000000000 = .instr (.execCmd 7 0x00) := by decide
/-- R101, R104: txfree. -/
theorem test_decode_txfree : decodeReq 0x1000000000000000 = .instr (.txfree 0) := by decide
/-- R101, R104: rxsize. -/
theorem test_decode_rxsize : decodeReq 0x1120000000000000 = .instr (.rxsize 1) := by decide
/-- R108, R113 (95_test_vectors 2.3): fRdGen. -/
theorem test_decode_fRdGen : decodeTableWord 24 0x000900 = some (.fRdGen 0x0009) := by decide
/-- R108, R113 (95_test_vectors 2.3): fWrGen. -/
theorem test_decode_fWrGen : decodeTableWord 24 0x000904 = some (.fWrGen 0x0009) := by decide
/-- R108, R113 (95_test_vectors 2.3): fRdSreg. -/
theorem test_decode_fRdSreg :
    decodeTableWord 24 0x000368 = some (.fRdSreg 0x0003 3) ∧
    decodeTableWord 24 0x0026E8 = some (.fRdSreg 0x0026 7) := by decide
/-- R108, R113 (95_test_vectors 2.3): fWrSreg. -/
theorem test_decode_fWrSreg : decodeTableWord 24 0x00016C = some (.fWrSreg 0x0001 3) := by decide
/-- R108, R113 (95_test_vectors 2.3): fWrTxb. -/
theorem test_decode_fWrTxb :
    decodeTableWord 24 0x07FE14 = some (.fWrTxb 0x07FE 0) ∧
    decodeTableWord 24 0x100054 = some (.fWrTxb 0x1000 2) := by decide
/-- R108, R113 (95_test_vectors 2.3): fRdRxb. -/
theorem test_decode_fRdRxb :
    decodeTableWord 24 0x0FD038 = some (.fRdRxb 0x0FD0 1) ∧
    decodeTableWord 24 0x3FFFF8 = some (.fRdRxb 0x3FFF 7) := by decide
/-- R108: the header bytes in the order they cross the bus, high address byte first. -/
theorem test_decode_header_bytes : decodeFrameBytes Cfg.ref 0x0F 0xD0 0x38 = .instr (.fRdRxb 0x0FD0 1) := by decide
/-- R118: a general-bank header with socket bits, a read of the TX bank, a header with bit 0 set: none of the six kinds. -/
theorem test_decode_refuses_other_headers :
    decodeTableWord 24 0x000924 = none ∧ decodeTableWord 24 0x07FE10 = none ∧ decodeTableWord 24 0x000901 = none := by decide
/-- R106: an operation code that no row has (95_test_vectors 2.2). -/
theorem test_decode_refuses_unknown_codes :
    decodeReq 0x0000000000000000 = .reserved .unknownOp ∧ decodeReq 0x1200000000000000 = .reserved .unknownOp ∧
    decodeReq 0xFF00000000000000 = .reserved .unknownOp := by decide
/-- R103, R106: a must-be-zero bit that is set (95_test_vectors 2.2). -/
theorem test_decode_refuses_set_bits :
    [0x0100000000000001, 0x0200000000000180, 0x0400000000010000, 0x0700000300000001, 0x0A0107D000641800, 0x0B3007D000640000,
      0x0C00000100040000, 0x0C10000000040000, 0x0E28000000640000, 0x0F00000000000120, 0x1000000000000001].map decodeReq =
      List.replicate 11 (.reserved .mustBeZero) := by decide
/-- R111: control bytes 95_test_vectors 2.3 prints. -/
theorem test_control_bytes :
    snCtl 0 0b01 false = 0x08 ∧ snCtl 0 0b01 true = 0x0C ∧ snCtl 5 0b01 false = 0xA8 ∧ snCtl 5 0b01 true = 0xAC ∧
    snCtl 7 0b10 true = 0xF4 ∧ snCtl 7 0b11 false = 0xF8 ∧ genCtl false = 0x00 ∧ genCtl true = 0x04 := by decide
/-- R115: 16-bit values in a data phase, high byte first (95_test_vectors 2.3). -/
theorem test_word_bytes :
    bytesOfWord 0x0834 = [0x08, 0x34] ∧ bytesOfWord 0x00FF = [0x00, 0xFF] ∧ wordOfBytes [0x01, 0x2C] = 0x012C := by decide
/-- R119: assembler lines of 95_test_vectors, numbers in decimal. -/
theorem test_asm :
    (Instr.xlate 2000 100 0x1800).asm = "XLATE 2000, 100, 6144" ∧ (Instr.recv 1 true 100).asm = "RECV.P 1, 100" ∧
    Instr.init.asm = "INIT" := by decide
/-- R120: pseudo-operations P3 of 95_test_vectors uses, by their words. -/
theorem test_pseudo :
    encodeReq (pseudoRdTxWr Cfg.ref 2) = 0x0940002400000000 ∧ encodeReq (pseudoCommitTx Cfg.ref 2 0x003C) = 0x084000240000003C ∧
    encodeReq (pseudoPeek 1 100) = 0x0E30000000640000 := by decide

/-! ## The translation: T1 to T18 of 95_test_vectors 4, at base 0 -/

/-- T1, T6, T9, T11, T12, T13, T14, T16: the splits. -/
theorem test_xlate_splits :
    xlate 2000 100 2048 0 = [(2000, 48), (0, 52)] ∧ xlate 2047 2 2048 0 = [(2047, 1), (0, 1)] ∧
    xlate 1949 100 2048 0 = [(1949, 99), (0, 1)] ∧ xlate 65535 2 2048 0 = [(2047, 1), (0, 1)] ∧
    xlate 63440 100 2048 0 = [(2000, 48), (0, 52)] ∧ xlate 1 2048 2048 0 = [(1, 2047), (0, 1)] ∧
    xlate 2047 2048 2048 0 = [(2047, 1), (0, 2047)] ∧ xlate 1024 1025 2048 0 = [(1024, 1024), (0, 1)] := by decide
/-- T2, T3, T4, T5, T7, T8, T10, T15, T17, T18: one piece. -/
theorem test_xlate_single_pieces :
    xlate 0 0 2048 0 = [(0, 0)] ∧ xlate 0 1 2048 0 = [(0, 1)] ∧ xlate 0 2048 2048 0 = [(0, 2048)] ∧
    xlate 2047 1 2048 0 = [(2047, 1)] ∧ xlate 2048 10 2048 0 = [(0, 10)] ∧ xlate 1948 100 2048 0 = [(1948, 100)] ∧
    xlate 65535 1 2048 0 = [(2047, 1)] ∧ xlate 1024 1024 2048 0 = [(1024, 1024)] ∧ xlate 4101 7 2048 0 = [(5, 7)] ∧
    xlate 2000 0 2048 0 = [(2000, 0)] := by decide

/-! ## One step of each instruction: the vectors of 95_test_vectors 3 to 7 -/

/-- R142: INIT makes STATUS 0b011 and sends nothing. -/
theorem test_init : leaves (fun t => (t.status, t.wire)) (exec .init State.reset) = some (0b011, []) := by decide

/-- B1: the whole frame of a one-byte write, on the wires. -/
theorem test_wr1 : leaves (fun t => (t.wire, t.res)) (exec (.wr1 0x04 0x0000 0x80) ready) =
    some ([.fall, .out 0x00, .out 0x00, .out 0x04, .out 0x80, .rise], 0) := by decide
/-- B6: the last chip address. -/
theorem test_wr1_at_the_top : leaves (fun t => t.trace) (exec (.wr1 0x04 0xFFFF 0x01) ready) = some [.w 0xFFFF 0x04 [0x01]] := by
  decide
/-- B3. -/
theorem test_wrn : leaves (fun t => (t.trace, t.din, t.res)) (exec (.wrn 0x04 0x0009 4) (withDin [0xC0, 0xA8, 0x01, 0x02])) =
    some ([.w 0x0009 0x04 [0xC0, 0xA8, 0x01, 0x02]], [], 4) := by decide
/-- B7: a run that ends at the last chip address; what is left of DIN stays. -/
theorem test_wrn_at_the_top : leaves (fun t => (t.trace, t.din, t.res)) (exec (.wrn 0x04 0xFFFE 2) (withDin [0x01, 0x02, 0x03])) =
    some ([.w 0xFFFE 0x04 [0x01, 0x02]], [0x03], 2) := by decide
/-- B2: DUMMY goes out, RES is the byte that came in. -/
theorem test_rd1 : leaves (fun t => (t.wire, t.trace, t.res)) (exec (.rd1 0x00 0x0000) (answering [0x80])) =
    some ([.fall, .out 0x00, .out 0x00, .out 0x00, .out 0x00, .rise], [.r 0x0000 0x00 [0x80]], 0x0080) := by decide
/-- B4. -/
theorem test_rdn :
    leaves (fun t => (t.dout, t.res)) (exec (.rdn 0x00 0x0009 6) (answering [0x00, 0x08, 0xDC, 0x01, 0x02, 0x03])) =
      some ([0x00, 0x08, 0xDC, 0x01, 0x02, 0x03], 6) := by decide
/-- A1. -/
theorem test_snwr1 : leaves (fun t => (t.trace, t.res)) (exec (.snwr1 3 0x0001 0x01) ready) =
    some ([.w 0x0001 0x6C [0x01]], 0) := by decide
/-- A5: the last chip address. -/
theorem test_snwr1_at_the_top : leaves (fun t => t.trace) (exec (.snwr1 0 0xFFFF 0x01) ready) = some [.w 0xFFFF 0x0C [0x01]] := by
  decide
/-- A2. -/
theorem test_snrd1 : leaves (fun t => (t.trace, t.res)) (exec (.snrd1 3 0x0003) (answering [0x17])) =
    some ([.r 0x0003 0x68 [0x17]], 0x0017) := by decide
/-- A3: the high byte lies at the lower address. -/
theorem test_snwr2 : leaves (fun t => (t.trace, Memory.read (1 * 65536 + 0x25) t.chipMem)) (exec (.snwr2 0 0x0024 0x003C) ready) =
    some ([.w 0x0024 0x0C [0x00, 0x3C]], some 0x3C) := by decide
/-- F13: two bytes from 0xFFFF. -/
theorem test_snwr2_past_the_top : reasonOf (exec (.snwr2 0 0xFFFF 0x0001) ready) = some .addrRange := by decide
/-- A4. -/
theorem test_snrd2 : leaves (fun t => (t.trace, t.res)) (exec (.snrd2 7 0x0026) (answering [0x01, 0x2C])) =
    some ([.r 0x0026 0xE8 [0x01, 0x2C]], 0x012C) := by decide
/-- F2 and section 4: XLATE needs no INIT and makes no transaction. -/
theorem test_xlate : leaves (fun t => (segRegs t, t.trace, t.csOe)) (exec (.xlate 2000 100 0x1800) State.reset) =
    some ((0x1FD0, 48, 0x1800, 52), [], false) := by decide
/-- Section 4: no second piece reads as (base, 0). -/
theorem test_xlate_unsplit : leaves segRegs (exec (.xlate 2047 1 0x0000) State.reset) = some (0x07FF, 1, 0x0000, 0) := by decide
/-- X1 at 3 bytes: `p = 2046` splits after 2. -/
theorem test_rddata : leaves (fun t => (t.trace, t.dout, segRegs t)) (exec (.rddata 1 2046 3) (answering [0x11, 0x22, 0x33])) =
    some ([.r 0x0FFE 0x38 [0x11, 0x22], .r 0x0800 0x38 [0x33]], [0x11, 0x22, 0x33], (0x0FFE, 2, 0x0800, 1)) := by decide
/-- X2: the write-back is 0x0802, not reduced to the buffer size. -/
theorem test_send :
    leaves (fun t => (t.trace, segRegs t)) (exec (.send 0 4) { answering [0x07, 0xFE] with din := [0xDE, 0xAD, 0xBE, 0xEF] }) =
      some ([.r 0x0024 0x08 [0x07, 0xFE], .w 0x07FE 0x14 [0xDE, 0xAD], .w 0x0000 0x14 [0xBE, 0xEF], .w 0x0024 0x0C [0x08, 0x02]],
        (0x07FE, 2, 0x0000, 2)) := by decide
/-- X3: 0xFFFE + 4 wraps to 0x0002. -/
theorem test_send_wraps :
    leaves (fun t => t.trace) (exec (.send 3 4) { answering [0xFF, 0xFE] with din := [0x01, 0x02, 0x03, 0x04] }) =
      some [.r 0x0024 0x68 [0xFF, 0xFE], .w 0x1FFE 0x74 [0x01, 0x02], .w 0x1800 0x74 [0x03, 0x04],
        .w 0x0024 0x6C [0x00, 0x02]] := by decide
/-- X4. -/
theorem test_sendofs :
    leaves (fun t => (t.trace, t.res, segRegs t))
      (exec (.sendofs 2 0 10) (withDin [0xA0, 0xA1, 0xA2, 0xA3, 0xA4, 0xA5, 0xA6, 0xA7, 0xA8, 0xA9])) =
      some ([.w 0x1000 0x54 [0xA0, 0xA1, 0xA2, 0xA3, 0xA4, 0xA5, 0xA6, 0xA7, 0xA8, 0xA9]], 0x000A, (0x1000, 10, 0x1000, 0)) := by
  decide
/-- R220, R221: the third call of the assembly from 0xFFE0, cut to 4 bytes: 2 bytes at the top, the rest at the base. -/
theorem test_sendofs_wraps :
    leaves (fun t => (t.trace, t.res)) (exec (.sendofs 2 0xFFFE 4) (withDin [0xC0, 0xC1, 0xC2, 0xC3])) =
      some ([.w 0x17FE 0x54 [0xC0, 0xC1], .w 0x1000 0x54 [0xC2, 0xC3]], 0x0002) := by decide
/-- X6: a peek writes nothing. -/
theorem test_recv_peek :
    leaves (fun t => (t.trace, segRegs t)) (exec (.recv 7 true 2) (answering [0xFF, 0xFF, 0xAA, 0xBB])) =
      some ([.r 0x0028 0xE8 [0xFF, 0xFF], .r 0x3FFF 0xF8 [0xAA], .r 0x3800 0xF8 [0xBB]], (0x3FFF, 1, 0x3800, 1)) := by decide
/-- P2 step 4 at 2 bytes: a drain writes the pointer advanced by LEN. -/
theorem test_recv_drain :
    leaves (fun t => (t.trace, t.dout)) (exec (.recv 1 false 2) (answering [0x07, 0xD0, 0xD0, 0xD1])) =
      some ([.r 0x0028 0x28 [0x07, 0xD0], .r 0x0FD0 0x38 [0xD0, 0xD1], .w 0x0028 0x2C [0x07, 0xD2]], [0xD0, 0xD1]) := by decide
/-- Q3: the shortest EXEC. -/
theorem test_exec : leaves (fun t => (t.trace, t.seq)) (exec (.execCmd 3 0x01) (answering [0x00])) =
    some ([.w 0x0001 0x6C [0x01], .r 0x0001 0x68 [0x00]], .idle) := by decide
/-- Q1: a poll that is not 0 leaves BUSY at 1. -/
theorem test_exec_polls_on : leaves (fun t => (t.busy, t.status)) (exec (.execCmd 0 0x20) (answering [0x20])) =
    some (true, 0b111) := by decide
/-- Q4. -/
theorem test_txfree : leaves (fun t => (t.trace, t.res, t.seq)) (exec (.txfree 0) (answering [0x08, 0x00, 0x08, 0x00])) =
    some ([.r 0x0020 0x08 [0x08, 0x00], .r 0x0020 0x08 [0x08, 0x00]], 0x0800, .idle) := by decide
/-- Q6: the first pair differs in its low byte; the second value is the one to compare with next. -/
theorem test_txfree_torn : leaves (fun t => (t.vprev, t.seq, t.res)) (exec (.txfree 2) (answering [0x01, 0x00, 0x01, 0xFF])) =
    some (0x01FF, .txfreeRead, 0) := by decide
/-- Q5: the first pair differs. -/
theorem test_rxsize_torn : leaves (fun t => (t.trace, t.seq)) (exec (.rxsize 1) (answering [0x00, 0x32, 0x00, 0x64])) =
    some ([.r 0x0026 0x28 [0x00, 0x32], .r 0x0026 0x28 [0x00, 0x64]], .rxsizeRead) := by decide
/-- Q5: the third read agrees with the second. -/
theorem test_rxsize_third_read :
    leaves (fun t => (t.res, t.seq, t.trace)) (rbatTurn { comparing .rxsizeRead 0x11 with chip := [0x00, 0x64] }) =
      some (0x0064, .idle, [.r 0x0026 0x28 [0x00, 0x64]]) := by decide
/-- R113: a read frame of the general bank. -/
theorem test_fRdGen : leaves (fun t => t.trace) (exec (.fRdGen 0x0009) { due 0x000900 [] 2 with chip := [0x01, 0x02] }) =
    some [.r 0x0009 0x00 [0x01, 0x02]] := by decide
/-- R113: a write frame of the general bank. -/
theorem test_fWrGen : leaves (fun t => (t.trace, t.seq)) (exec (.fWrGen 0x0009) (due 0x000904 [0xC0] 0)) =
    some ([.w 0x0009 0x04 [0xC0]], .idle) := by decide
/-- R113: a read frame of a socket's registers. -/
theorem test_fRdSreg : leaves (fun t => t.trace) (exec (.fRdSreg 0x0003 3) { due 0x000368 [] 1 with chip := [0x17] }) =
    some [.r 0x0003 0x68 [0x17]] := by decide
/-- R113: a write frame of a socket's registers. -/
theorem test_fWrSreg : leaves (fun t => t.trace) (exec (.fWrSreg 0x0001 3) (due 0x00016C [0x01] 0)) =
    some [.w 0x0001 0x6C [0x01]] := by decide
/-- R113: a write frame of a socket's TX bank. -/
theorem test_fWrTxb : leaves (fun t => t.wire) (exec (.fWrTxb 0x07FE 0) (due 0x07FE14 [0xDE, 0xAD] 0)) =
    some [.fall, .out 0x07, .out 0xFE, .out 0x14, .out 0xDE, .out 0xAD, .rise] := by decide
/-- R113: a read frame of a socket's RX bank. -/
theorem test_fRdRxb : leaves (fun t => t.trace) (exec (.fRdRxb 0x3FFF 7) { due 0x3FFFF8 [] 1 with chip := [0xAA] }) =
    some [.r 0x3FFF 0xF8 [0xAA]] := by decide

/-! ## Refusals: F1 to F16 of 95_test_vectors 7 -/

/-- F1, F14: before INIT, and before the control byte is looked at. -/
theorem test_refuses_before_init :
    reasonOf (exec (.txfree 0) State.reset) = some .notInit ∧ reasonOf (exec (.wr1 0x05 0 0x80) State.reset) = some .notInit := by
  decide
/-- F3, F4, F5, F6. -/
theorem test_refuses_control_bytes :
    reasonOf (exec (.wr1 0x00 0 0x80) ready) = some .ctlDir ∧ reasonOf (exec (.rd1 0x04 0) ready) = some .ctlDir ∧
    reasonOf (exec (.wr1 0x05 0 0x80) ready) = some .ctlWidth ∧ reasonOf (exec (.wr1 0x24 0 0x80) ready) = some .ctlBank := by
  decide
/-- F7, F8, F10, F12, F16. -/
theorem test_refuses_lengths :
    reasonOf (exec (.send 0 0) ready) = some .lenZero ∧ reasonOf (exec (.send 0 2049) ready) = some .lenRange ∧
    reasonOf (exec (.send 0 4) (withDin [1, 2, 3])) = some .dinShort ∧ reasonOf (exec (.rdn 0x00 0 0) ready) = some .lenZero := by
  decide
/-- F11 and section 4: a run past the top, a base past the top. -/
theorem test_refuses_ranges :
    reasonOf (exec (.wrn 0x04 0xFFFF 2) (withDin [1, 2])) = some .addrRange ∧
    reasonOf (exec (.xlate 2000 100 0xF801) ready) = some .baseRange ∧
    reasonOf (exec (.xlate 2000 2049 0) ready) = some .lenRange := by decide
/-- F15: a reserved word is refused as such before INIT is asked for. -/
theorem test_refuses_reserved : reasonOf (step (State.reset.withFetchWord 64 0x0100000000000001)) = some .reserved := by decide
/-- R118: a due header of no kind. -/
theorem test_refuses_frame_kind : reasonOf (step (State.reset.withFetchWord 24 0x000901)) = some .frameKind := by decide

/-! ## The step and the host's turn -/

/-- R142: the first request after reset, fetched and run. -/
theorem test_step_runs_init :
    leaves (fun t => (t.csOe, t.req)) (step (State.reset.withFetchWord 64 0x0100000000000000)) = some (true, none) := by decide
/-- R102, U17: a request written while BUSY = 1 is dropped. -/
theorem test_busy_drops_request :
    leaves (fun t => t.req) (step { polling with chip := [0x01], inbox := [.writeReq 0x0100000000000000] }) = some none := by
  decide
/-- R32, R33, log 7: the host's acts on the streams. -/
theorem test_host_streams :
    leaves (fun t => t.din) (step { ready with inbox := [.putDin [1, 2]] }) = some [1, 2] ∧
    leaves (fun t => t.dout) (step { ready with dout := [1, 2, 3], inbox := [.takeDout 2] }) = some [3] := by decide
/-- R30: STATUS between two polls. -/
theorem test_status_between_polls : polling.status = 0b111 := by decide
/-- R271, R307: a host that awaits stays where it is while BUSY = 1 and goes on when it is 0. -/
theorem test_host_awaits :
    leaves (fun t => t.inbox) (hostTurn { polling with inbox := [.await, .putDin [1]] }) = some [.await, .putDin [1]] ∧
    leaves (fun t => t.inbox) (hostTurn { ready with inbox := [.await, .putDin [1]] }) = some [.putDin [1]] := by decide
/-- R290: reset puts CS_OE back to 0. -/
theorem test_reset_input : leaves (fun t => t.csOe) (step { ready with inbox := [.reset] }) = some false := by decide
/-- R21, R44, U19: what a host reads. -/
theorem test_host_reads :
    State.reset.hostRead .status = some 1 ∧ State.reset.hostRead .res = none ∧
    ({ ready with res := 5, resWritten := true } : State).hostRead .res = some 5 := by decide


/-! ## Witnesses: each obligation's hypotheses can be met -/

/-- A configuration that is not the reference one: the bank codes the other way round. -/
def otherCfg : Cfg := { Cfg.ref with bankTx := 0b11, bankRx := 0b10 }

theorem witness_cfg_ok : Cfg.ref.Ok ∧ otherCfg.Ok := by decide

/-- What the invariant says holds of a state without history. -/
theorem inv_of {s : State} (h1 : s.cfg = Cfg.ref) (h2 : s.csn = true) (h3 : s.csOe = true)
    (h4 : ∀ c, s.seq.opCode = some c → s.opnd.op = c) (h5 : s.chipMem = []) (h6 : s.trace = []) (h7 : s.wire = [])
    (h8 : s.segWritten = false) : s.Inv where
  cfgOk := by rw [h1]; exact witness_cfg_ok.1
  csnHigh := h2
  busyInit := fun _ => h3
  seqOp := h4
  memWf := by rw [h5]; rfl
  memTrace := by rw [h5, h6]; rfl
  wireTrace := by rw [h7, h6]; rfl
  legal := by simp [h6]
  segFit := by simp [h8]

theorem witness_FrameHeaderHasOneMeaning :
    otherCfg.Ok ∧ decodeFrame otherCfg 0x07FE1C = .instr (.fWrTxb 0x07FE 0) ∧ decodeFrame otherCfg 0x07FE14 = .reserved .frameKind := by
  decide

/-- The 17 request rows, fixed bits and mask (R104). -/
def requestRows : List (ReqWord × ReqWord) :=
    [(0x0100000000000000, 0xFFFFFFFFFFFFFFFF), (0x0200000000000000, 0xFF000000FFFFFF00),
     (0x0300000000000000, 0xFF0000000000FFFF), (0x0400000000000000, 0xFF000000FFFFFFFF),
     (0x0500000000000000, 0xFF0000000000FFFF), (0x0600000000000000, 0xFF1F0000FFFFFF00),
     (0x0700000000000000, 0xFF1F0000FFFFFFFF), (0x0800000000000000, 0xFF1F0000FFFF0000),
     (0x0900000000000000, 0xFF1F0000FFFFFFFF), (0x0A00000000000000, 0xFFFF000000000000),
     (0x0B00000000000000, 0xFF1F00000000FFFF), (0x0C00000000000000, 0xFF1FFFFF0000FFFF),
     (0x0D00000000000000, 0xFF1F00000000FFFF), (0x0E00000000000000, 0xFF0FFFFF0000FFFF),
     (0x0F00000000000000, 0xFF1FFFFFFFFFFF00), (0x1000000000000000, 0xFF1FFFFFFFFFFFFF),
     (0x1100000000000000, 0xFF1FFFFFFFFFFFFF)]

/-- Words of no row. -/
theorem witness_reserved_words :
    (∀ r ∈ requestRows, (0x1200000000000000 : ReqWord) &&& r.2 ≠ r.1) ∧
    (∀ r ∈ requestRows, (0x0B3007D000640000 : ReqWord) &&& r.2 ≠ r.1) := by simp [requestRows]

/-- A word of no row, pending in an idle RBAT, and a word of a row. -/
theorem witness_ReservedMeansNoRowMatches :
    (∀ r ∈ requestRows, (0x1200000000000000 : ReqWord) &&& r.2 ≠ r.1) ∧
    (∃ r ∈ requestRows, (0x0B2007D000640000 : ReqWord) &&& r.2 = r.1) ∧
    ({ State.reset with req := some 0x1200000000000000 } : State).seq = .idle ∧
    ({ State.reset with req := some 0x1200000000000000 } : State).req = some 0x1200000000000000 :=
  ⟨witness_reserved_words.1, by simp [requestRows], rfl, rfl⟩

theorem witness_StepRunsThePendingRequest :
    ({ ready with req := some 0x0660000100000001 } : State).seq = .idle ∧
    ({ ready with req := some 0x0660000100000001 } : State).req = some 0x0660000100000001 ∧
    decodeReq 0x0660000100000001 = .instr (.snwr1 3 0x0001 0x01) := by decide

theorem witness_StepRunsTheDueFrame :
    (due 0x07FE14 [0xDE] 0).seq = .xfer 0x07FE14 [0xDE] 0 ∧
    decodeFrame (due 0x07FE14 [0xDE] 0).cfg 0x07FE14 = .instr (.fWrTxb 0x07FE 0) := by decide

theorem witness_RequestWhileBusyIsDropped :
    polling.busy = true ∧ ready.busy = false ∧ (Instr.send 0 4).isRequest = true := by decide

theorem witness_PlacedRequestRunsNext : (Instr.rxsize 7).isRequest = true := by decide

theorem witness_ResetInputRestoresResetState : ready.busy = false ∧ polling.busy = true := by decide

theorem witness_StepKeepsTheInvariant :
    ({ ready with req := some 0x0204000000000080 } : State).Inv ∧
    ∃ t, step { ready with req := some 0x0204000000000080 } = .next t :=
  ⟨inv_of rfl rfl rfl (by simp [ready, State.reset, Seq.opCode]) rfl rfl rfl rfl, _, rfl⟩

theorem witness_NoStepFaults : polling.Inv :=
  inv_of rfl rfl rfl (by simp [polling, Seq.opCode]) rfl rfl rfl rfl

theorem witness_LoopAlwaysHasANextTurn :
    (polling.Inv ∧ polling.InLoop) ∧
    ((comparing .txfreeRead 0x10).Inv ∧ (comparing .txfreeRead 0x10).InLoop) ∧
    ((comparing .rxsizeRead 0x11).Inv ∧ (comparing .rxsizeRead 0x11).InLoop) :=
  ⟨⟨witness_NoStepFaults, by decide⟩,
    ⟨inv_of rfl rfl rfl (by simp [comparing, Seq.opCode]) rfl rfl rfl rfl, by decide⟩,
    ⟨inv_of rfl rfl rfl (by simp [comparing, Seq.opCode]) rfl rfl rfl rfl, by decide⟩⟩

theorem witness_ConfigurationNeverChanges : ∃ t, step { ready with cfg := otherCfg, inbox := [.reset] } = .next t := ⟨_, rfl⟩

theorem witness_TurnPutsWholeFramesOnTheWires : ∃ t, rbatTurn { ready with req := some 0x0660000100000001 } = .next t := ⟨_, rfl⟩

/-- An operation, and further turns of EXEC of socket 3 and of TXFREE and RXSIZE of socket 1: the registers of R62. -/
theorem witness_OwnFramesAreOfTheSixKinds :
    (ready.cfg.Ok ∧ (Instr.snwr1 3 0x0001 0x01).rawCtl = none ∧
      ∃ t, exec (.snwr1 3 0x0001 0x01) ready = .next t ∧ t.trace = ready.trace ++ [.w 0x0001 0x6C [0x01]]) ∧
    (polling.cfg.Ok ∧ ∃ t, rbatTurn { polling with chip := [1] } = .next t ∧ t.trace = polling.trace ++ [.r 0x0001 0x68 [1]]) ∧
    (∃ t, rbatTurn { comparing .txfreeRead 0x10 with chip := [0, 1] } = .next t ∧ t.trace = [] ++ [.r 0x0020 0x28 [0, 1]]) ∧
    (∃ t, rbatTurn { comparing .rxsizeRead 0x11 with chip := [0, 1] } = .next t ∧ t.trace = [] ++ [.r 0x0026 0x28 [0, 1]]) :=
  ⟨⟨witness_cfg_ok.1, rfl, _, rfl, rfl⟩, ⟨witness_cfg_ok.1, _, rfl, rfl⟩, ⟨_, rfl, rfl⟩, ⟨_, rfl, rfl⟩⟩

theorem witness_TransactionsAreCountedByTheTable :
    (StartsIn (.send 0 1) { answering [0x07, 0xFF] with din := [1] } ∧
      ∃ t, exec (.send 0 1) { answering [0x07, 0xFF] with din := [1] } = .next t) ∧
    (polling.InLoop ∧ ∃ t, rbatTurn { polling with chip := [1] } = .next t) ∧
    ((comparing .txfreeRead 0x10).InLoop ∧ ∃ t, rbatTurn { comparing .txfreeRead 0x10 with chip := [0, 1] } = .next t) :=
  ⟨⟨by decide, _, rfl⟩, ⟨by decide, _, rfl⟩, ⟨by decide, _, rfl⟩⟩

/-- One instruction for each reason, and one for none. -/
theorem witness_FirstReasonIsReported :
    StartsIn (.init) State.reset ∧ expectedRefusal (.txfree 0) State.reset = some .notInit ∧
    expectedRefusal (.wr1 0x05 0 0) ready = some .ctlWidth ∧ expectedRefusal (.wr1 0x00 0 0) ready = some .ctlDir ∧
    expectedRefusal (.wr1 0x24 0 0) ready = some .ctlBank ∧ expectedRefusal (.rdn 0x00 0 0) ready = some .lenZero ∧
    expectedRefusal (.rddata 0 0 2049) ready = some .lenRange ∧ expectedRefusal (.xlate 0 0 0xF801) ready = some .baseRange ∧
    expectedRefusal (.snrd2 0 0xFFFF) ready = some .addrRange ∧ expectedRefusal (.sendofs 0 0 1) ready = some .dinShort ∧
    expectedRefusal (.snrd2 0 0xFFFE) ready = none ∧ ready.csn = true := by decide

theorem witness_HiddenStateIsDeadWhenIdle :
    (StartsIn (.rxsize 0) (ready.withHidden ⟨1, 2, 3, 4, 5⟩ 1 2 3) ∧ StartsIn (.fRdGen 0) polling) ∧
    polling.InLoop ∧ (comparing .txfreeRead 0x10).InLoop ∧ (comparing .rxsizeRead 0x11).InLoop := by decide

/-- R22, R246: what the next turn of a loop reads is kept in the comparison: an answer that stands at a further read of TXFREE keeps
the operands and VPREV, one that is idle keeps neither. -/
theorem test_live_hidden_state_is_kept :
    ((comparing .txfreeRead 0x10).forgetDead.opnd.op, (comparing .txfreeRead 0x10).forgetDead.vprev) = (0x10, 0x0064) ∧
    polling.forgetDead.opnd.op = 0x0F ∧ ({ ready with vprev := 7 } : State).forgetDead.vprev = 0 := by decide

/-- A turn of each loop: EXEC polls 1 and goes on, EXEC polls 0 and ends, TXFREE reads a value that differs and goes on, RXSIZE reads
the same value again and ends. -/
theorem witness_loop_turns :
    (polling.InLoop ∧ (comparing .txfreeRead 0x10).InLoop ∧ (comparing .rxsizeRead 0x11).InLoop) ∧
    (∃ t, rbatTurn { polling with chip := [1] } = .next t ∧ t.seq = .execPoll) ∧
    (∃ t, rbatTurn { polling with chip := [0] } = .next t ∧ t.seq = .idle) ∧
    (∃ t, rbatTurn { comparing .txfreeRead 0x10 with chip := [0, 1] } = .next t ∧ t.seq ≠ .idle) ∧
    (∃ t, rbatTurn { comparing .rxsizeRead 0x11 with chip := [0, 0x64] } = .next t ∧ t.seq = .idle) :=
  ⟨by decide, ⟨_, rfl, rfl⟩, ⟨_, rfl, rfl⟩, ⟨_, rfl, by decide⟩, ⟨_, rfl, rfl⟩⟩

/-- The turns of witness_loop_turns meet the second clause: the polls, and the read after which TXFREE goes on. -/
theorem witness_ResIsLeftAlone :
    ((Instr.send 0 1).writesRes = false ∧ ∃ t, exec (.send 0 1) { answering [0x07, 0xFF] with din := [1] } = .next t) ∧
    polling.seq = .execPoll ∧
    ∃ t, rbatTurn { comparing .txfreeRead 0x10 with chip := [0, 1] } = .next t ∧ t.seq ≠ .idle :=
  ⟨⟨rfl, _, rfl⟩, rfl, _, rfl, by decide⟩

theorem witness_SegmentRegistersAreLeftAlone :
    ((Instr.rxsize 1).writesSegs = false ∧ ∃ t, exec (.rxsize 1) (answering [0, 1, 0, 1]) = .next t) ∧
    ∃ t, rbatTurn { comparing .rxsizeRead 0x11 with chip := [0, 1] } = .next t := ⟨⟨rfl, _, rfl⟩, _, rfl⟩

theorem witness_OtherRegistersAreLeftAlone :
    (∃ t, exec (.recv 7 true 2) (answering [0xFF, 0xFF, 0xAA, 0xBB]) = .next t) ∧
    ((Instr.fWrGen 0xFFFF).isRequest = false ∧ ∃ t, exec (.fWrGen 0xFFFF) (due 0xFFFF04 [1] 0) = .next t) ∧
    polling.seq = .execPoll ∧ ∃ t, rbatTurn { polling with chip := [1] } = .next t := ⟨⟨_, rfl⟩, ⟨rfl, _, rfl⟩, rfl, _, rfl⟩

/-- An operation, a turn of a loop, and a host that writes DIN and reads DOUT. -/
theorem witness_StreamsMoveExactlyLen :
    (StartsIn (.wrn 0x04 0xFFFF 1) (withDin [1]) ∧ ∃ t, exec (.wrn 0x04 0xFFFF 1) (withDin [1]) = .next t) ∧
    (polling.InLoop ∧ ∃ t, rbatTurn { polling with chip := [1] } = .next t) ∧
    ({ polling with inbox := [.putDin [1, 2], .pause] } : State).inbox = .putDin [1, 2] :: [.pause] ∧
    ({ ready with dout := [1], inbox := [.takeDout 1] } : State).inbox = .takeDout 1 :: [] :=
  ⟨⟨by decide, _, rfl⟩, ⟨by decide, _, rfl⟩, rfl, rfl⟩

/-- The clause on loops has the turns of witness_loop_turns. -/
theorem witness_OtherChipLocationsAreLeftAlone :
    ready.cfg.Ok ∧ (∃ t, exec (.snwr2 0 0xFFFE 0x0102) ready = .next t) ∧
    (∀ r ∈ storedRuns (.snwr2 0 0xFFFE 0x0102) ready, Run.misses r (1 * 65536 + 0xFFFD)) ∧
    ∃ t, rbatTurn { comparing .rxsizeRead 0x11 with chip := [0, 1] } = .next t :=
  ⟨witness_cfg_ok.1, ⟨_, rfl⟩, by decide, _, rfl⟩

theorem witness_BusWriteSendsOneFrame :
    1 ≤ ([0x01] : List Byte).length ∧ (0xFFFF : Word).toNat + ([0x01] : List Byte).length ≤ 65536 ∧ ready.csOe = true ∧
    ready.csn = true := by decide

theorem witness_BusReadReceivesOneFrame :
    1 ≤ 65536 ∧ (0x0000 : Word).toNat + 65536 ≤ 65536 ∧ ready.csOe = true ∧ ready.csn = true := by decide

theorem witness_InitDrivesChipSelectHigh :
    State.reset.seq = .idle ∧ (Instr.rxsize 0).usesBus = true ∧ State.reset.csOe = false ∧ StartsIn (.rxsize 0) State.reset ∧
    ∃ t, exec .init State.reset = .next t := ⟨rfl, rfl, rfl, fun _ => rfl, _, rfl⟩

theorem witness_Wr1WritesOneByte : ready.Ready ∧ RawCtlOk true 0x04 ∧ RawCtlOk true 0xFC := by decide

theorem witness_WrnWritesARun :
    ready.Ready ∧ RawCtlOk true 0x34 ∧ 1 ≤ (1 : Word).toNat ∧ (0xFFFF : Word).toNat + (1 : Word).toNat ≤ 65536 ∧
    (1 : Word).toNat ≤ (withDin [7]).din.length := by decide

theorem witness_Rd1ReadsOneByte : ready.Ready ∧ RawCtlOk false 0x00 ∧ RawCtlOk false 0xF8 := by decide

theorem witness_RdnReadsARun :
    ready.Ready ∧ RawCtlOk false 0x38 ∧ 1 ≤ (0xFFFF : Word).toNat ∧ (0x0001 : Word).toNat + (0xFFFF : Word).toNat ≤ 65536 := by decide

theorem witness_SocketRegisterWrites :
    ready.Ready ∧ (ready.cfg.sregBase 7).toNat + (0xFFFF : Word).toNat + 1 ≤ 65536 ∧
    (ready.cfg.sregBase 7).toNat + (0xFFFE : Word).toNat + 2 ≤ 65536 := by decide

theorem witness_SocketRegisterReads :
    ready.Ready ∧ (ready.cfg.sregBase 0).toNat + (0xFFFF : Word).toNat + 1 ≤ 65536 ∧
    (ready.cfg.sregBase 0).toNat + (0xFFFE : Word).toNat + 2 ≤ 65536 := by decide

/-- A buffer that is full, and one of one byte. -/
theorem witness_TranslationStaysInTheBuffer : (0 < 2048 ∧ 2048 ≤ 2048) ∧ (0 < 1 ∧ 0 ≤ 1) := by decide

/-- Both lengths of R195: a wrap, and no byte. -/
theorem witness_TranslationIsExact : (0 < 2048 ∧ 2048 ≤ 2048 ∧ 1 % 2048 + 2048 > 2048) ∧ (0 < 2048 ∧ 0 ≤ 2048 ∧ 0 = 0) := by decide

theorem witness_AdvancedPointerContinuesTheTransfer : 0 < 2048 ∧ 2048 ∣ 65536 := by decide

/-- Each clause at an end of its range. -/
theorem witness_XlateWritesTheSegments :
    State.reset.seq = .idle ∧ ((2048 : Word).toNat ≤ 2048 ∧ (0xF800 : Word).toNat + 2048 ≤ 65536) ∧ 2048 < (2049 : Word).toNat ∧
    ((0 : Word).toNat ≤ 2048 ∧ 65536 < (0xF801 : Word).toNat + 2048) := by decide

/-- A ring transfer of one byte and one of the whole buffer. -/
theorem witness_ring_lengths :
    ready.Ready ∧ (1 ≤ (1 : Word).toNat ∧ (1 : Word).toNat ≤ 2048) ∧ (1 ≤ (2048 : Word).toNat ∧ (2048 : Word).toNat ≤ 2048) := by decide

theorem witness_RddataReadsTheRing : ready.Ready ∧ 1 ≤ (2048 : Word).toNat ∧ (2048 : Word).toNat ≤ 2048 := by decide

theorem witness_SendStagesAndWritesBack :
    (withDin (List.replicate 2048 7)).Ready ∧ 1 ≤ (2048 : Word).toNat ∧ (2048 : Word).toNat ≤ 2048 ∧
    (2048 : Word).toNat ≤ (withDin (List.replicate 2048 7)).din.length :=
  ⟨⟨rfl, rfl, rfl⟩, by decide, by decide, by
    change 2048 ≤ (List.replicate 2048 7).length
    rw [List.length_replicate]⟩

theorem witness_SendofsStagesAtTheOffset :
    (withDin [7]).Ready ∧ 1 ≤ (1 : Word).toNat ∧ (1 : Word).toNat ≤ 2048 ∧ (1 : Word).toNat ≤ (withDin [7]).din.length := by decide

theorem witness_RecvDrainsOrPeeks : ready.Ready ∧ 1 ≤ (1 : Word).toNat ∧ (1 : Word).toNat ≤ 2048 := by decide

theorem witness_StagedBytesLandInRingOrder :
    (withDin [1, 2, 3]).cfg.Ok ∧ (withDin [1, 2, 3]).Ready ∧ 1 ≤ (3 : Word).toNat ∧ (3 : Word).toNat ≤ 2048 ∧
    (3 : Word).toNat ≤ (withDin [1, 2, 3]).din.length ∧
    (∀ i : Nat, i < (3 : Word).toNat → 2 * 65536 + 3 ≠ locOf (snCtl 0 Cfg.ref.bankTx true) (ringAddr 0 2048 0 i)) := by decide

theorem witness_ThreadedOffsetsAssembleOneUnit :
    (withDin (List.replicate 2048 7)).cfg.Ok ∧ (withDin (List.replicate 2048 7)).Ready ∧ 1 ≤ (10 : Word).toNat ∧
    1 ≤ (20 : Word).toNat ∧ 1 ≤ (2018 : Word).toNat ∧ (10 : Word).toNat + (20 : Word).toNat + (2018 : Word).toNat ≤ 2048 ∧
    (10 : Word).toNat + (20 : Word).toNat + (2018 : Word).toNat ≤ (withDin (List.replicate 2048 7)).din.length :=
  ⟨witness_cfg_ok.1, ⟨rfl, rfl, rfl⟩, by decide, by decide, by decide, by decide, by
    change 2048 ≤ (List.replicate 2048 7).length
    rw [List.length_replicate]⟩

/-- The chip answers pointer and data the same way twice. -/
theorem witness_PeekThenDrainGivesTheSameBytes :
    (answering [0xFF, 0xFF, 0xAA, 0xFF, 0xFF, 0xAA]).Ready ∧ 1 ≤ (1 : Word).toNat ∧ (1 : Word).toNat ≤ 2048 ∧
    ∃ t, exec (.recv 0 true 1) (answering [0xFF, 0xFF, 0xAA, 0xFF, 0xFF, 0xAA]) = .next t ∧
      t.nextBytes 3 = (answering [0xFF, 0xFF, 0xAA, 0xFF, 0xFF, 0xAA]).nextBytes 3 := ⟨by decide, by decide, by decide, _, rfl, rfl⟩

theorem witness_PeekIsRddataAtTheChipsPointer :
    (answering [0xFF, 0xFF, 0xAA]).Ready ∧ ∃ t, exec (.recv 0 true 1) (answering [0xFF, 0xFF, 0xAA]) = .next t := ⟨by decide, _, rfl⟩

/-- X7 of 95_test_vectors 5: a chip that reads back what was sent. -/
def loopback : State := { answering [0x07, 0xFE, 0x11, 0x22, 0x33] with din := [0x11, 0x22, 0x33] }

theorem witness_RoundTripUnderLoopback :
    loopback.cfg.Ok ∧ loopback.Ready ∧ 1 ≤ (3 : Word).toNat ∧ (3 : Word).toNat ≤ 2048 ∧ (3 : Word).toNat ≤ loopback.din.length ∧
    loopback.cfg.txBase 1 = loopback.cfg.rxBase 1 ∧
    ∃ t, exec (.send 1 3) loopback = .next t ∧ ∀ i : Nat, i < (3 : Word).toNat → (t.nextBytes (3 : Word).toNat)[i]? =
      Memory.read (locOf (snCtl 1 loopback.cfg.bankTx true) (ringAddr t.ptr.toNat 2048 (loopback.cfg.rxBase 1).toNat i)) t.chipMem :=
  ⟨witness_cfg_ok.1, by decide, by decide, by decide, by decide, by decide, _, rfl, by decide⟩

theorem witness_ExecWritesThenPolls : (answering [0x20]).Ready := by decide

/-- Q1 of 95_test_vectors 6, and an EXEC whose first poll is 0. -/
theorem witness_ExecEndsAtTheFirstZeroPoll :
    ((answering [0x20, 0x20, 0x00]).Ready ∧ (∀ b ∈ ([0x20, 0x20] : List Byte), b ≠ 0) ∧
      (answering [0x20, 0x20, 0x00]).nextBytes (([0x20, 0x20] : List Byte).length + 1) = [0x20, 0x20] ++ [0]) ∧
    ((answering [0x00]).Ready ∧ (answering [0x00]).nextBytes (([] : List Byte).length + 1) = [] ++ [0]) := by decide

/-- Q8 of 95_test_vectors 6, after three polls. -/
theorem witness_ExecNeverEndsOnASilentChip :
    (answering [0x20, 0x20, 0x20]).Ready ∧ ∀ b ∈ (answering [0x20, 0x20, 0x20]).nextBytes (2 + 1), b ≠ 0 := by decide

theorem witness_SizeReadsCompareTwoReads : (answering [0x08, 0x00, 0x08, 0x00]).Ready := by decide

/-- Q4 and Q5 of 95_test_vectors 6. -/
theorem witness_SizeReadEndsAtTwoEqualReads :
    ((answering [0x08, 0x00, 0x08, 0x00]).Ready ∧ ([0x0800] : List Word).getLast? = some 0x0800 ∧
      (answering [0x08, 0x00, 0x08, 0x00]).nextBytes 4 = ([0x0800] ++ [0x0800]).flatMap bytesOfWord) ∧
    ((answering [0x00, 0x32, 0x00, 0x64, 0x00, 0x64]).Ready ∧ ([0x0032, 0x0064] : List Word).getLast? = some 0x0064 ∧
      (∀ i : Nat, i < 1 → ([0x0032, 0x0064] : List Word)[i]? ≠ ([0x0032, 0x0064] : List Word)[i + 1]?) ∧
      (answering [0x00, 0x32, 0x00, 0x64, 0x00, 0x64]).nextBytes 6 = ([0x0032, 0x0064] ++ [0x0064]).flatMap bytesOfWord) := by decide

/-- Q9 of 95_test_vectors 6, after three reads. -/
theorem witness_SizeReadNeverEndsWhileValuesChange :
    (answering [0x01, 0x00, 0x01, 0x01, 0x01, 0x00]).Ready ∧ 2 ≤ ([0x0100, 0x0101, 0x0100] : List Word).length ∧
    (∀ i : Nat, i < 2 → ([0x0100, 0x0101, 0x0100] : List Word)[i]? ≠ ([0x0100, 0x0101, 0x0100] : List Word)[i + 1]?) ∧
    (answering [0x01, 0x00, 0x01, 0x01, 0x01, 0x00]).nextBytes 6 =
      ([0x0100, 0x0101, 0x0100] : List Word).flatMap bytesOfWord := by decide

theorem witness_WriteFramesDoOneTransaction :
    (due 0xFFFF04 [0x01] 0).seq = .xfer 0xFFFF04 [0x01] 0 ∧ (due 0xFFFF04 [0x01] 0).csOe = true ∧
    (due 0xFFFF04 [0x01] 0).csn = true ∧ 1 ≤ ([0x01] : List Byte).length ∧
    (0xFFFF : Word).toNat + ([0x01] : List Byte).length ≤ 65536 := by decide

theorem witness_ReadFramesDoOneTransaction :
    (due 0x000000 [] 65536).seq = .xfer 0x000000 [] 65536 ∧ (due 0x000000 [] 65536).csOe = true ∧
    (due 0x000000 [] 65536).csn = true ∧ 1 ≤ 65536 ∧ (0x0000 : Word).toNat + 65536 ≤ 65536 := by decide

/-- Clause by clause: a state in a loop that meets the invariant, an operation that writes RES and one that writes SEG*, a turn of
each loop (witness_loop_turns), and a host that awaits while BUSY = 1, while a request is pending and while neither holds. -/
theorem witness_HostReadsStatusAndResults :
    (polling.Inv ∧ polling.InLoop) ∧
    (StartsIn (.rd1 0x00 0) (answering [1]) ∧ ∃ t, exec (.rd1 0x00 0) (answering [1]) = .next t) ∧
    (StartsIn (.xlate 0 0 0xF800) State.reset ∧ ∃ t, exec (.xlate 0 0 0xF800) State.reset = .next t) ∧
    (({ polling with inbox := [.await] } : State).inbox = .await :: [] ∧ polling.busy = true) ∧
    (({ ready with req := some 0, inbox := [.await] } : State).inbox = .await :: [] ∧
      ({ ready with req := some 0, inbox := [.await] } : State).req ≠ none) ∧
    (({ ready with inbox := [.await] } : State).inbox = .await :: [] ∧ ready.busy = false ∧ ready.req = none) :=
  ⟨⟨witness_NoStepFaults, by decide⟩, ⟨by decide, _, rfl⟩, ⟨by decide, _, rfl⟩, by decide, by decide, by decide⟩

end Sys2Proof.Tests
end

/-! # What an instruction does, said once

For every instruction the tests it makes, the bytes it draws, the transactions it does and the registers it updates are written as
functions of the state it starts in. `exec_eq` ties them to `exec`; the proofs below go through it and do not unfold a meaning. -/

namespace Sys2Proof.Machine

/-! ## Chip-select is high where a transaction begins -/

/-- Releasing a released chip-select changes nothing. -/
theorem State.withCsnHigh {s : State} (hc : s.csn = true) : { s with csn := true } = s := by
  cases s
  simp_all

theorem busWrite_high {s : State} (hc : s.csn = true) (a : Word) (c : Byte) (d : List Byte) :
    busWrite a c d s = s.did [.w a c d] := by
  rw [busWrite_eq, State.withCsnHigh hc]

theorem busRead_high {s : State} (hc : s.csn = true) (a : Word) (c : Byte) (n : Nat) :
    busRead a c n s = (s.nextBytes n, (s.drew n).did [.r a c (s.nextBytes n)]) := by
  rw [busRead_eq, State.withCsnHigh (s := s.drew n) hc]

/-- The read of a socket register that returns these bytes (R171). -/
abbrev regRead (c : Cfg) (sock : Sock) (off : Word) (d : List Byte) : Txn := .r (regAddr c sock off) (rdCtl sock) d

/-- The write of these bytes to a socket register (R171). -/
abbrev regWrite (c : Cfg) (sock : Sock) (off : Word) (d : List Byte) : Txn := .w (regAddr c sock off) (wrCtl sock) d

theorem snWr1_high {s : State} (hc : s.csn = true) (sock : Sock) (off : Word) (b : Byte) :
    snWr1 sock off b s = s.did [regWrite s.cfg sock off [b]] := busWrite_high hc _ _ _

theorem snWr2_high {s : State} (hc : s.csn = true) (sock : Sock) (off v : Word) :
    snWr2 sock off v s = s.did [regWrite s.cfg sock off (bytesOfWord v)] := busWrite_high hc _ _ _

theorem snRd1_high {s : State} (hc : s.csn = true) (sock : Sock) (off : Word) :
    snRd1 sock off s = (byteOfBytes (s.nextBytes 1), (s.drew 1).did [regRead s.cfg sock off (s.nextBytes 1)]) := by
  rw [snRd1, busRead_high hc]

theorem snRd2_high {s : State} (hc : s.csn = true) (sock : Sock) (off : Word) :
    snRd2 sock off s = (wordOfBytes (s.nextBytes 2), (s.drew 2).did [regRead s.cfg sock off (s.nextBytes 2)]) := by
  rw [snRd2, busRead_high hc]

/-! ## Register updates and the bus

They commute. The simp normal form of a state is its transactions, of register updates, of the bytes drawn. -/

section

variable (s : State) (ts : List Txn) (n : Nat)

@[simp] theorem State.setRes_did (v : Word) : (s.did ts).setRes v = (s.setRes v).did ts := rfl
@[simp] theorem State.setSegs_did (ps : List (Nat × Nat)) (B : Nat) : (s.did ts).setSegs ps B = (s.setSegs ps B).did ts := rfl
@[simp] theorem State.setPtr_did (v : Word) : (s.did ts).setPtr v = (s.setPtr v).did ts := rfl
@[simp] theorem State.setVprev_did (v : Word) : (s.did ts).setVprev v = (s.setVprev v).did ts := rfl
@[simp] theorem State.setK_did (k : Nat) : (s.did ts).setK k = (s.setK k).did ts := rfl
@[simp] theorem State.setSeq_did (q : Seq) : (s.did ts).setSeq q = (s.setSeq q).did ts := rfl
@[simp] theorem State.dropDin_did (k : Nat) : (s.did ts).dropDin k = (s.dropDin k).did ts := rfl
@[simp] theorem State.putDout_did (d : List Byte) : (s.did ts).putDout d = (s.putDout d).did ts := rfl
@[simp] theorem State.sample_did (o : Operands) : (s.did ts).sample o = (s.sample o).did ts := rfl

@[simp] theorem State.drew_setRes (v : Word) : (s.setRes v).drew n = (s.drew n).setRes v := rfl
@[simp] theorem State.drew_setSegs (ps : List (Nat × Nat)) (B : Nat) : (s.setSegs ps B).drew n = (s.drew n).setSegs ps B := rfl
@[simp] theorem State.drew_setPtr (v : Word) : (s.setPtr v).drew n = (s.drew n).setPtr v := rfl
@[simp] theorem State.drew_setVprev (v : Word) : (s.setVprev v).drew n = (s.drew n).setVprev v := rfl
@[simp] theorem State.drew_setK (k : Nat) : (s.setK k).drew n = (s.drew n).setK k := rfl
@[simp] theorem State.drew_setSeq (q : Seq) : (s.setSeq q).drew n = (s.drew n).setSeq q := rfl
@[simp] theorem State.drew_dropDin (k : Nat) : (s.dropDin k).drew n = (s.drew n).dropDin k := rfl
@[simp] theorem State.drew_putDout (d : List Byte) : (s.putDout d).drew n = (s.drew n).putDout d := rfl
@[simp] theorem State.drew_sample (o : Operands) : (s.sample o).drew n = (s.drew n).sample o := rfl

@[simp] theorem State.nextBytes_setRes (v : Word) : (s.setRes v).nextBytes n = s.nextBytes n := rfl
@[simp] theorem State.nextBytes_setSegs (ps : List (Nat × Nat)) (B : Nat) : (s.setSegs ps B).nextBytes n = s.nextBytes n := rfl
@[simp] theorem State.nextBytes_setPtr (v : Word) : (s.setPtr v).nextBytes n = s.nextBytes n := rfl
@[simp] theorem State.nextBytes_setVprev (v : Word) : (s.setVprev v).nextBytes n = s.nextBytes n := rfl
@[simp] theorem State.nextBytes_setK (k : Nat) : (s.setK k).nextBytes n = s.nextBytes n := rfl
@[simp] theorem State.nextBytes_setSeq (q : Seq) : (s.setSeq q).nextBytes n = s.nextBytes n := rfl
@[simp] theorem State.nextBytes_dropDin (k : Nat) : (s.dropDin k).nextBytes n = s.nextBytes n := rfl
@[simp] theorem State.nextBytes_putDout (d : List Byte) : (s.putDout d).nextBytes n = s.nextBytes n := rfl
@[simp] theorem State.nextBytes_sample (o : Operands) : (s.sample o).nextBytes n = s.nextBytes n := rfl

end

/-! ## The compare of TXFREE and RXSIZE -/

/-- The registers after a read of `v` has been compared with the read before it (R246). -/
def State.compare (v : Word) (again : Seq) (s : State) : State :=
  { s with
    seq := if v = s.vprev then .idle else again
    res := if v = s.vprev then v else s.res
    resWritten := s.resWritten || v == s.vprev
    vprev := v }

section

variable (s : State) (v : Word) (again : Seq)

@[simp] theorem State.compare_cfg : (s.compare v again).cfg = s.cfg := rfl
@[simp] theorem State.compare_req : (s.compare v again).req = s.req := rfl
@[simp] theorem State.compare_seg : (s.compare v again).seg = s.seg := rfl
@[simp] theorem State.compare_segWritten : (s.compare v again).segWritten = s.segWritten := rfl
@[simp] theorem State.compare_csOe : (s.compare v again).csOe = s.csOe := rfl
@[simp] theorem State.compare_csn : (s.compare v again).csn = s.csn := rfl
@[simp] theorem State.compare_din : (s.compare v again).din = s.din := rfl
@[simp] theorem State.compare_dout : (s.compare v again).dout = s.dout := rfl
@[simp] theorem State.compare_opnd : (s.compare v again).opnd = s.opnd := rfl
@[simp] theorem State.compare_ptr : (s.compare v again).ptr = s.ptr := rfl
@[simp] theorem State.compare_k : (s.compare v again).k = s.k := rfl
@[simp] theorem State.compare_trace : (s.compare v again).trace = s.trace := rfl
@[simp] theorem State.compare_wire : (s.compare v again).wire = s.wire := rfl
@[simp] theorem State.compare_chipMem : (s.compare v again).chipMem = s.chipMem := rfl
@[simp] theorem State.compare_chip : (s.compare v again).chip = s.chip := rfl
@[simp] theorem State.compare_drawn : (s.compare v again).drawn = s.drawn := rfl
@[simp] theorem State.compare_inbox : (s.compare v again).inbox = s.inbox := rfl
@[simp] theorem State.compare_vprev : (s.compare v again).vprev = v := rfl
@[simp] theorem State.compare_resWritten : (s.compare v again).resWritten = (s.resWritten || v == s.vprev) := rfl

end

/-- A compare ends the operation exactly where the two reads are equal (R246). -/
theorem State.compare_seq_idle {s : State} {v : Word} {again : Seq} (h : again ≠ .idle) :
    (s.compare v again).seq = .idle ↔ v = s.vprev := by
  by_cases hv : v = s.vprev <;> simp [State.compare, hv, h]

/-- A compare that does not end the operation leaves it at its read, and RES alone (R246). -/
theorem State.compare_goesOn {s : State} {v : Word} {again : Seq} (h : (s.compare v again).seq ≠ .idle) :
    (s.compare v again).seq = again ∧ (s.compare v again).res = s.res ∧ (s.compare v again).resWritten = s.resWritten := by
  by_cases hv : v = s.vprev <;> simp_all [State.compare]

theorem compareRead_high {s : State} (hc : s.csn = true) (off : Word) (again : Seq) :
    compareRead off again s =
      ((s.compare (wordOfBytes (s.nextBytes 2)) again).drew 2).did [regRead s.cfg s.sock off (s.nextBytes 2)] := by
  rw [compareRead_eq off again s hc]
  by_cases h : wordOfBytes (s.nextBytes 2) = s.vprev
  · simp [h, State.compare, State.did, State.drew, State.setRes, State.setSeq]
  · simp [h, State.compare, State.did, State.drew, State.setVprev, State.setSeq]

/-! ## The parts of a transaction -/

section

variable (a : Word) (c : Byte) (d : List Byte)

@[simp] theorem Txn.addr_w : (Txn.w a c d).addr = a := rfl
@[simp] theorem Txn.addr_r : (Txn.r a c d).addr = a := rfl
@[simp] theorem Txn.ctl_w : (Txn.w a c d).ctl = c := rfl
@[simp] theorem Txn.ctl_r : (Txn.r a c d).ctl = c := rfl
@[simp] theorem Txn.data_w : (Txn.w a c d).data = d := rfl
@[simp] theorem Txn.data_r : (Txn.r a c d).data = d := rfl
@[simp] theorem Txn.isWrite_w : (Txn.w a c d).isWrite = true := rfl
@[simp] theorem Txn.isWrite_r : (Txn.r a c d).isWrite = false := rfl

end

@[simp] theorem bytesOfWord_length (v : Word) : (bytesOfWord v).length = 2 := rfl

/-! ## Tests, draws, transactions and registers of each instruction -/

/-- The tests of an instruction after the one of `CS_OE`, in the order of R264. -/
def testsOf (i : Instr) (s : State) : List (Bool × Refusal) :=
  match i with
  | .init | .execCmd _ _ | .txfree _ | .rxsize _ => []
  | .wr1 ctl _ _ => ctlChecks true ctl
  | .wrn ctl addr len => ctlChecks true ctl ++ runChecks addr len ++ dinChecks s len
  | .rd1 ctl _ => ctlChecks false ctl
  | .rdn ctl addr len => ctlChecks false ctl ++ runChecks addr len
  | .snwr1 sock off _ | .snrd1 sock off => regChecks s.cfg sock off 1
  | .snwr2 sock off _ | .snrd2 sock off => regChecks s.cfg sock off 2
  | .xlate _ n base => [(lenOverBuffer 2048 n, .lenRange), (baseTooHigh base, .baseRange)]
  | .rddata _ _ len | .recv _ _ len => ringChecks Config.rsize len
  | .send _ len | .sendofs _ _ len => ringChecks Config.ssize len ++ dinChecks s len
  | .fWrGen a | .fWrSreg a _ | .fWrTxb a _ =>
    [(s.phaseData.isEmpty, .lenZero), (runTooHigh a.toNat s.phaseData.length, .addrRange)]
  | .fRdGen a | .fRdSreg a _ | .fRdRxb a _ => [(s.phaseLen == 0, .lenZero), (runTooHigh a.toNat s.phaseLen, .addrRange)]

/-- How many bytes the chip answers an instruction, up to the first test of a loop. -/
def drawsOf (i : Instr) (s : State) : Nat :=
  match i with
  | .init | .wr1 _ _ _ | .wrn _ _ _ | .snwr1 _ _ _ | .snwr2 _ _ _ | .xlate _ _ _ | .sendofs _ _ _
  | .fWrGen _ | .fWrSreg _ _ | .fWrTxb _ _ => 0
  | .rd1 _ _ | .snrd1 _ _ | .execCmd _ _ => 1
  | .snrd2 _ _ | .send _ _ => 2
  | .txfree _ | .rxsize _ => 2 + 2
  | .rdn _ _ len | .rddata _ _ len => len.toNat
  | .recv _ _ len => 2 + len.toNat
  | .fRdGen _ | .fRdSreg _ _ | .fRdRxb _ _ => s.phaseLen

/-- The next two bytes of the chip as a pointer or a size, high byte first (R115). -/
def State.nextWord (s : State) : Word := wordOfBytes (s.nextBytes 2)

/-- The transactions that read a ring from pointer `p` on (R213). -/
def ringReads (c : Cfg) (sock : Sock) (p len : Word) (bs : List Byte) : List Txn :=
  readTxns (snCtl sock c.bankRx false) (rxPieces c sock p len) bs

/-- The transactions that write a ring from pointer `p` on (R213). -/
def ringWrites (c : Cfg) (sock : Sock) (p len : Word) (bs : List Byte) : List Txn :=
  writeTxns (snCtl sock c.bankTx true) (txPieces c sock p len) bs

/-- The transactions of an instruction, up to the first test of a loop. -/
def txnsOf (i : Instr) (s : State) : List Txn :=
  match i with
  | .init | .xlate _ _ _ => []
  | .wr1 ctl addr dat => [.w addr ctl [dat]]
  | .wrn ctl addr len => [.w addr ctl (s.din.take len.toNat)]
  | .rd1 ctl addr => [.r addr ctl (s.nextBytes 1)]
  | .rdn ctl addr len => [.r addr ctl (s.nextBytes len.toNat)]
  | .snwr1 sock off dat => [regWrite s.cfg sock off [dat]]
  | .snrd1 sock off => [regRead s.cfg sock off (s.nextBytes 1)]
  | .snwr2 sock off dat => [regWrite s.cfg sock off (bytesOfWord dat)]
  | .snrd2 sock off => [regRead s.cfg sock off (s.nextBytes 2)]
  | .rddata sock src len => ringReads s.cfg sock src len (s.nextBytes len.toNat)
  | .send sock len =>
    [regRead s.cfg sock s.cfg.offTxWr (s.nextBytes 2)] ++ ringWrites s.cfg sock s.nextWord len (s.din.take len.toNat) ++
      [regWrite s.cfg sock s.cfg.offTxWr (bytesOfWord (advance s.nextWord len))]
  | .sendofs sock offset len => ringWrites s.cfg sock offset len (s.din.take len.toNat)
  | .recv sock peek len =>
    [regRead s.cfg sock s.cfg.offRxRd (s.nextBytes 2)] ++
      ringReads s.cfg sock s.nextWord len ((s.drew 2).nextBytes len.toNat) ++
      if peek then [] else [regWrite s.cfg sock s.cfg.offRxRd (bytesOfWord (advance s.nextWord len))]
  | .execCmd sock cmd => [regWrite s.cfg sock s.cfg.offCr [cmd], regRead s.cfg sock s.cfg.offCr (s.nextBytes 1)]
  | .txfree sock =>
    [regRead s.cfg sock s.cfg.offTxFsr (s.nextBytes 2), regRead s.cfg sock s.cfg.offTxFsr ((s.drew 2).nextBytes 2)]
  | .rxsize sock =>
    [regRead s.cfg sock s.cfg.offRxRsr (s.nextBytes 2), regRead s.cfg sock s.cfg.offRxRsr ((s.drew 2).nextBytes 2)]
  | .fRdGen a => [.r a (genCtl false) (s.nextBytes s.phaseLen)]
  | .fWrGen a => [.w a (genCtl true) s.phaseData]
  | .fRdSreg a sock => [.r a (rdCtl sock) (s.nextBytes s.phaseLen)]
  | .fWrSreg a sock => [.w a (wrCtl sock) s.phaseData]
  | .fWrTxb a sock => [.w a (snCtl sock s.cfg.bankTx true) s.phaseData]
  | .fRdRxb a sock => [.r a (snCtl sock s.cfg.bankRx false) (s.nextBytes s.phaseLen)]

/-- The registers and streams after an instruction, the sampled operands apart. -/
def updateOf (i : Instr) (s : State) : State :=
  match i with
  | .wr1 _ _ _ | .snwr1 _ _ _ | .snwr2 _ _ _ => s
  | .init => { s with csn := true, csOe := true }
  | .wrn _ _ len => (s.dropDin len.toNat).setRes len
  | .rd1 _ _ | .snrd1 _ _ => s.setRes ((byteOfBytes (s.nextBytes 1)).zeroExtend 16)
  | .rdn _ _ len => (s.putDout (s.nextBytes len.toNat)).setRes len
  | .snrd2 _ _ => s.setRes s.nextWord
  | .xlate p n base => s.setSegs (xlate p.toNat n.toNat 2048 base.toNat) base.toNat
  | .rddata sock src len =>
    (s.setSegs (rxPieces s.cfg sock src len) (s.cfg.rxBase sock).toNat).putDout (s.nextBytes len.toNat)
  | .send sock len =>
    (((s.setPtr s.nextWord).dropDin len.toNat).setSegs (txPieces s.cfg sock s.nextWord len)
      (s.cfg.txBase sock).toNat).setK len.toNat
  | .sendofs sock offset len =>
    (((s.dropDin len.toNat).setSegs (txPieces s.cfg sock offset len) (s.cfg.txBase sock).toNat).setK len.toNat).setRes
      (advance offset len)
  | .recv sock _ len =>
    ((s.setPtr s.nextWord).setSegs (rxPieces s.cfg sock s.nextWord len) (s.cfg.rxBase sock).toNat).putDout
      ((s.drew 2).nextBytes len.toNat)
  | .execCmd _ _ => s.setSeq (if byteOfBytes (s.nextBytes 1) == 0 then .idle else .execPoll)
  | .txfree _ => (s.setVprev s.nextWord).compare (s.drew 2).nextWord .txfreeRead
  | .rxsize _ => (s.setVprev s.nextWord).compare (s.drew 2).nextWord .rxsizeRead
  | .fRdGen _ | .fWrGen _ | .fRdSreg _ _ | .fWrSreg _ _ | .fWrTxb _ _ | .fRdRxb _ _ => s.setSeq .idle

/-- The sampled operands after an instruction: a frame has none (R22). -/
def operandsOf (i : Instr) (s : State) : Operands := if i.isRequest then fieldsOf i else s.opnd

/-- What an instruction makes of a state in which its operands are sampled. -/
def effectOf (i : Instr) (u : State) : State := ((updateOf i u).drew (drawsOf i u)).did (txnsOf i u)

/-- The state an accepted instruction leaves. -/
def outcomeOf (i : Instr) (s : State) : State := effectOf i (s.sample (operandsOf i s))

/-! ## What the meanings compute, in those terms -/

/-- RingRead where chip-select is high (R213). -/
theorem ringRead_high {s : State} (hc : s.csn = true) (sock : Sock) (p len : Word) :
    ringRead sock p len.toNat s = (s.nextBytes len.toNat,
      ((s.drew len.toNat).setSegs (rxPieces s.cfg sock p len) (s.cfg.rxBase sock).toNat).did
        (ringReads s.cfg sock p len (s.nextBytes len.toNat))) := ringRead_eq sock p len s hc

/-- RingWrite of the first LEN bytes of a stream that has them, where chip-select is high (R213). -/
theorem ringWrite_high {s : State} (hc : s.csn = true) (sock : Sock) (p : Word) {len : Word} {d : List Byte}
    (hd : len.toNat ≤ d.length) :
    ringWrite sock p (d.take len.toNat) s = ((s.setSegs (txPieces s.cfg sock p len) (s.cfg.txBase sock).toNat).did
      (ringWrites s.cfg sock p len (d.take len.toNat))).setK len.toNat := by
  rw [ringWrite_eq sock p _ s hc, List.length_take_of_le hd]
  rfl

/-- One poll where chip-select is high (R244). -/
theorem pollCommand_high {s : State} (hc : s.csn = true) :
    pollCommand s = ((s.setSeq (if byteOfBytes (s.nextBytes 1) == 0 then .idle else .execPoll)).drew 1).did
      [regRead s.cfg s.sock s.cfg.offCr (s.nextBytes 1)] := pollCommand_eq s hc

/-- StableRead16 up to its first comparison, where chip-select is high (R246). -/
theorem stableRead_high {s : State} (hc : s.csn = true) (off : Word) (again : Seq) :
    stableRead off again s = (((s.setVprev s.nextWord).compare (s.drew 2).nextWord again).drew (2 + 2)).did
      [regRead s.cfg s.sock off (s.nextBytes 2), regRead s.cfg s.sock off ((s.drew 2).nextBytes 2)] := by
  rw [stableRead, snRd2_high hc, ← State.drew_drew]
  refine (compareRead_high (by exact hc) off again).trans ?_
  exact State.did_did ((((s.setVprev s.nextWord).compare (s.drew 2).nextWord again).drew 2).drew 2)
    [regRead s.cfg s.sock off (s.nextBytes 2)] [regRead s.cfg s.sock off ((s.drew 2).nextBytes 2)]

/-! ## exec is its tests and those four -/

/-- An effect counts only where chip-select is high and the tests are passed. -/
theorem onBus_congr {cs : List (Bool × Refusal)} {s : State} {e e' : State → State}
    (h : s.csn = true → (∀ c ∈ cs, c.1 = false) → e s = e' s) : onBus cs s e = onBus cs s e' := by
  simp only [onBus, firstRefusal]
  cases s.csOe with
  | false => rfl
  | true =>
    cases hf : firstRefusal cs with
    | some r => simp
    | none =>
      cases hc : s.csn with
      | false => rfl
      | true => simp [h hc (firstRefusal_none.mp hf)]

/-- A request with bus activity whose effect is the instruction's. -/
theorem busRequest_eq {i : Instr} {cs : List (Bool × Refusal)} {s : State} {e : State → State} (hi : i.isRequest = true)
    (h : ∀ u : State, u.csn = true → u.opnd = fieldsOf i → u.din = s.din → (∀ c ∈ cs, c.1 = false) →
      e u = effectOf i u) :
    busRequest i cs s e = if s.busy then .next s else onBus cs s (outcomeOf i) := by
  rw [busRequest, onBus_congr (e' := outcomeOf i)]
  intro hc ht
  rw [outcomeOf, operandsOf, if_pos hi]
  exact h _ hc rfl rfl ht

/-- `DIN` holds LEN bytes where its test is passed (R32). -/
theorem le_of_dinChecks {s : State} {len : Word} (h : ∀ c ∈ dinChecks s len, c.1 = false) :
    len.toNat ≤ s.din.length := by
  simpa [dinChecks] using h

/-- A frame samples nothing. -/
theorem outcomeOf_frame {i : Instr} (hi : i.isRequest = false) (s : State) : outcomeOf i s = effectOf i s := by
  simp [outcomeOf, operandsOf, hi, State.sample]

/-- A write frame whose parts are those of the instruction (R146). -/
theorem frameWrite_eq {i : Instr} {s : State} {a : Word} {c : Byte} (hi : i.isRequest = false)
    (he : effectOf i s = ((s.setSeq .idle).drew 0).did [.w a c s.phaseData]) :
    frameWrite a c s =
      onBus [(s.phaseData.isEmpty, .lenZero), (runTooHigh a.toNat s.phaseData.length, .addrRange)] s (outcomeOf i) :=
  onBus_congr fun hc _ => by simp [outcomeOf_frame hi, he, busWrite_high hc]

/-- A read frame whose parts are those of the instruction (R147). -/
theorem frameRead_eq {i : Instr} {s : State} {a : Word} {c : Byte} (hi : i.isRequest = false)
    (he : effectOf i s = ((s.setSeq .idle).drew s.phaseLen).did [.r a c (s.nextBytes s.phaseLen)]) :
    frameRead a c s = onBus [(s.phaseLen == 0, .lenZero), (runTooHigh a.toNat s.phaseLen, .addrRange)] s (outcomeOf i) :=
  onBus_congr fun hc _ => by simp [outcomeOf_frame hi, he, busRead_high hc]

/-- Every instruction is its tests and its outcome; a request is dropped while `BUSY = 1` (R102, R263). -/
theorem exec_eq (i : Instr) (s : State) :
    exec i s = if i.isRequest && s.busy then .next s
      else if i.usesBus then onBus (testsOf i s) s (outcomeOf i) else guarded (testsOf i s) s (outcomeOf i) := by
  cases i <;>
    simp only [exec, Instr.isRequest, Instr.usesBus, Bool.true_and, Bool.false_and, if_true, if_false, Bool.false_eq_true]
  case init =>
    simp [execInit, request, guarded, outcomeOf, operandsOf, effectOf, updateOf, drawsOf, txnsOf, testsOf, Instr.isRequest,
      State.sample]
  case xlate =>
    simp [execXlate, request, guarded, outcomeOf, operandsOf, effectOf, updateOf, drawsOf, txnsOf, testsOf, Instr.isRequest]
  case wr1 | rd1 | rdn | snwr1 | snrd1 | snwr2 | snrd2 | rddata =>
    refine busRequest_eq rfl fun u hc _ _ _ => ?_
    simp [effectOf, updateOf, drawsOf, txnsOf, busWrite_high, busRead_high, snWr1_high, snRd1_high, snWr2_high, snRd2_high,
      ringRead_high, hc, State.nextWord]
  case wrn | send | sendofs =>
    refine busRequest_eq rfl fun u hc _ hd ht => ?_
    have hl := le_of_dinChecks (List.forall_mem_append.mp ht).2
    simp [effectOf, updateOf, drawsOf, txnsOf, busWrite_high, snRd2_high, ringWrite_high, snWr2_high, hc, hd, hl, State.did_did,
      State.nextWord]
  case recv sock peek len =>
    refine busRequest_eq rfl fun u hc _ _ _ => ?_
    cases peek <;>
      simp [effectOf, updateOf, drawsOf, txnsOf, snRd2_high, ringRead_high, snWr2_high, hc, State.did_did, State.did_drew,
        State.drew_drew, State.nextWord]
  case execCmd | txfree | rxsize =>
    refine busRequest_eq rfl fun u hc ho _ _ => ?_
    simp [effectOf, updateOf, drawsOf, txnsOf, snWr1_high, pollCommand_high, stableRead_high, hc, ho, State.sock, fieldsOf,
      State.did_did, State.did_drew]
  case fRdGen | fRdSreg | fRdRxb => exact frameRead_eq rfl rfl
  case fWrGen | fWrSreg | fWrTxb => exact frameWrite_eq rfl rfl

/-- What an instruction can answer with a next state: a request dropped while `BUSY = 1`, or its outcome, its tests passed. -/
theorem exec_next {i : Instr} {s t : State} :
    exec i s = .next t ↔
      (i.isRequest = true ∧ s.busy = true ∧ t = s) ∨
      (StartsIn i s ∧ (i.usesBus = true → s.csOe = true ∧ s.csn = true) ∧ (∀ c ∈ testsOf i s, c.1 = false) ∧
        t = outcomeOf i s) := by
  have hb : StartsIn i s ↔ ¬ (i.isRequest && s.busy) = true := by
    cases hi : i.isRequest <;> simp [StartsIn, hi, State.busy_eq_false]
  rw [exec_eq, hb]
  cases hd : i.isRequest && s.busy with
  | true =>
    rw [Bool.and_eq_true] at hd
    simp [hd, @eq_comm _ s t]
  | false =>
    cases hu : i.usesBus <;> simp_all [onBus_next, guarded_next, and_assoc]

/-- What an instruction that starts can answer with a next state. -/
theorem exec_next_startsIn {i : Instr} {s t : State} (hs : StartsIn i s) (h : exec i s = .next t) :
    (i.usesBus = true → s.csOe = true ∧ s.csn = true) ∧ (∀ c ∈ testsOf i s, c.1 = false) ∧ t = outcomeOf i s := by
  rcases exec_next.mp h with ⟨hi, hb, _⟩ | ⟨_, h⟩
  · simp [State.busy, hs hi] at hb
  · exact h

/-- An instruction answers the state as it was or its outcome. -/
theorem exec_next_eq {i : Instr} {s t : State} (h : exec i s = .next t) : t = s ∨ t = outcomeOf i s := by
  rcases exec_next.mp h with ⟨_, _, h⟩ | ⟨_, _, _, h⟩
  · exact .inl h
  · exact .inr h

/-! ## What an instruction leaves alone -/

section

variable (i : Instr) (s : State) (o : Operands)

@[simp] theorem testsOf_sample : testsOf i (s.sample o) = testsOf i s := by cases i <;> rfl
@[simp] theorem txnsOf_sample : txnsOf i (s.sample o) = txnsOf i s := by cases i <;> rfl
@[simp] theorem drawsOf_sample : drawsOf i (s.sample o) = drawsOf i s := by cases i <;> rfl

@[simp] theorem updateOf_cfg : (updateOf i s).cfg = s.cfg := by cases i <;> rfl
@[simp] theorem updateOf_req : (updateOf i s).req = s.req := by cases i <;> rfl
@[simp] theorem updateOf_inbox : (updateOf i s).inbox = s.inbox := by cases i <;> rfl
@[simp] theorem updateOf_opnd : (updateOf i s).opnd = s.opnd := by cases i <;> rfl
@[simp] theorem updateOf_trace : (updateOf i s).trace = s.trace := by cases i <;> rfl
@[simp] theorem updateOf_wire : (updateOf i s).wire = s.wire := by cases i <;> rfl
@[simp] theorem updateOf_chipMem : (updateOf i s).chipMem = s.chipMem := by cases i <;> rfl

end

theorem updateOf_res {i : Instr} (h : i.writesRes = false) (s : State) :
    (updateOf i s).res = s.res ∧ (updateOf i s).resWritten = s.resWritten := by
  cases i <;> simp_all [updateOf, Instr.writesRes]

theorem updateOf_seg {i : Instr} (h : i.writesSegs = false) (s : State) :
    (updateOf i s).seg = s.seg ∧ (updateOf i s).segWritten = s.segWritten := by
  cases i <;> simp_all [updateOf, Instr.writesSegs]

/-- Only INIT drives the chip-select lines (R29). -/
theorem updateOf_lines {i : Instr} (h : i ≠ .init) (s : State) :
    (updateOf i s).csOe = s.csOe ∧ (updateOf i s).csn = s.csn := by
  cases i <;> simp_all [updateOf]

theorem updateOf_ptr {i : Instr} (h : ∀ sk n, i ≠ .send sk n) (h' : ∀ sk p n, i ≠ .recv sk p n) (s : State) :
    (updateOf i s).ptr = s.ptr := by
  cases i <;> simp_all [updateOf]

theorem updateOf_vprev {i : Instr} (h : ∀ sk, i ≠ .txfree sk) (h' : ∀ sk, i ≠ .rxsize sk) (s : State) :
    (updateOf i s).vprev = s.vprev := by
  cases i <;> simp_all [updateOf]

theorem updateOf_k {i : Instr} (h : ∀ sk n, i ≠ .send sk n) (h' : ∀ sk o n, i ≠ .sendofs sk o n) (s : State) :
    (updateOf i s).k = s.k := by
  cases i <;> simp_all [updateOf]

theorem updateOf_din (i : Instr) (s : State) : (updateOf i s).din = s.din.drop i.takesDin := by
  cases i <;> simp [updateOf, Instr.takesDin]

theorem updateOf_dout (i : Instr) (s : State) :
    ∃ d : List Byte, (updateOf i s).dout = s.dout ++ d ∧ d.length = i.putsDout := by
  cases i <;> simp [updateOf, Instr.putsDout]

/-- An instruction leaves `SEQ` idle, or is EXEC, TXFREE or RXSIZE and leaves it in its loop (R26, R242, R246). -/
theorem updateOf_seq {i : Instr} {s : State} (hs : StartsIn i s) :
    (updateOf i s).seq = .idle ∨ (∃ sock cmd, i = .execCmd sock cmd ∧ (updateOf i s).seq = .execPoll) ∨
      (∃ sock, i = .txfree sock ∧ (updateOf i s).seq = .txfreeRead) ∨
      (∃ sock, i = .rxsize sock ∧ (updateOf i s).seq = .rxsizeRead) := by
  by_cases hq : (updateOf i s).seq = .idle
  · exact .inl hq
  · cases i with
    | execCmd sock cmd => exact .inr (.inl ⟨sock, cmd, rfl, by simpa [updateOf] using hq⟩)
    | txfree sock => exact .inr (.inr (.inl ⟨sock, rfl, (State.compare_goesOn hq).1⟩))
    | rxsize sock => exact .inr (.inr (.inr ⟨sock, rfl, (State.compare_goesOn hq).1⟩))
    | fRdGen | fWrGen | fRdSreg | fWrSreg | fWrTxb | fRdRxb => exact .inl rfl
    | _ => exact absurd (hs rfl) hq

/-- RES is written where an operation that writes it ends (R23). -/
theorem updateOf_resWritten {i : Instr} {s : State} (hs : StartsIn i s) :
    (updateOf i s).resWritten = true ↔ s.resWritten = true ∨ (i.writesRes = true ∧ (updateOf i s).seq = .idle) := by
  cases i <;> simp_all [updateOf, Instr.writesRes, Instr.isRequest, State.compare_seq_idle]

theorem updateOf_segWritten (i : Instr) (s : State) :
    (updateOf i s).segWritten = true ↔ s.segWritten = true ∨ i.writesSegs = true := by
  cases i <;> simp_all [updateOf, Instr.writesSegs]

/-! ## Turns of RBAT and of the host -/

/-- The registers RBAT's own sequences use are registers of the configuration (R6, R38). -/
theorem mem_regs (c : Cfg) :
    (c.offCr, 1) ∈ c.regs ∧ (c.offTxFsr, 2) ∈ c.regs ∧ (c.offTxWr, 2) ∈ c.regs ∧ (c.offRxRsr, 2) ∈ c.regs ∧
      (c.offRxRd, 2) ∈ c.regs := by
  simp [Cfg.regs]

theorem rbatTurn_execPoll {s : State} (h : s.seq = .execPoll) : rbatTurn s = onBus [] s pollCommand := by
  simp only [rbatTurn, fetch, h, continueExec]

theorem rbatTurn_txfreeRead {s : State} (h : s.seq = .txfreeRead) :
    rbatTurn s = onBus [] s fun t => compareRead t.cfg.offTxFsr .txfreeRead t := by
  simp only [rbatTurn, fetch, h, continueTxfree]

theorem rbatTurn_rxsizeRead {s : State} (h : s.seq = .rxsizeRead) :
    rbatTurn s = onBus [] s fun t => compareRead t.cfg.offRxRsr .rxsizeRead t := by
  simp only [rbatTurn, fetch, h, continueRxsize]

/-- What a turn inside a loop can answer with a next state: one read of a register of R6, after which EXEC polls again or ends, and
TXFREE and RXSIZE compare. -/
theorem inLoop_next {s t : State} (hl : s.InLoop) (h : rbatTurn s = .next t) :
    s.csOe = true ∧ s.csn = true ∧ ∃ (off : Word) (n : Nat) (u : State), (off, n) ∈ s.cfg.regs ∧
      t = (u.drew n).did [regRead s.cfg s.sock off (s.nextBytes n)] ∧
      ((s.seq = .execPoll ∧ u = s.setSeq (if byteOfBytes (s.nextBytes 1) == 0 then .idle else .execPoll)) ∨
        (s.seq ≠ .execPoll ∧ u = s.compare s.nextWord s.seq)) := by
  obtain ⟨hcr, hfsr, _, hrsr, _⟩ := mem_regs s.cfg
  obtain ⟨hoe, hc, ⟨hq, rfl⟩ | ⟨hq, rfl⟩ | ⟨hq, rfl⟩⟩ := (rbatTurn_inLoop_next hl).mp h
  · exact ⟨hoe, hc, _, 1, _, hcr, pollCommand_high hc, .inl ⟨hq, rfl⟩⟩
  · exact ⟨hoe, hc, _, 2, _, hfsr, compareRead_high hc _ _, .inr ⟨by simp [hq], by rw [hq]; rfl⟩⟩
  · exact ⟨hoe, hc, _, 2, _, hrsr, compareRead_high hc _ _, .inr ⟨by simp [hq], by rw [hq]; rfl⟩⟩

/-- A loop is not idle. -/
theorem seq_ne_idle_of_inLoop {s : State} (hl : s.InLoop) : s.seq ≠ .idle := by
  rcases hl with h | h | h <;> simp [h]

/-- What RBAT's turn can answer with a next state: nothing to do, the pending request run, the due frame run, or a loop gone on. -/
theorem rbatTurn_next {s t : State} (h : rbatTurn s = .next t) :
    (s.seq = .idle ∧ s.req = none ∧ t = s) ∨
    (∃ w i, s.seq = .idle ∧ s.req = some w ∧ decodeReq w = .instr i ∧ exec i s.takeReq = .next t) ∨
    (∃ hd d n i, s.seq = .xfer hd d n ∧ decodeFrame s.cfg hd = .instr i ∧ exec i s = .next t) ∨
    s.InLoop := by
  cases hq : s.seq with
  | execPoll => exact .inr (.inr (.inr (.inl hq)))
  | txfreeRead => exact .inr (.inr (.inr (.inr (.inl hq))))
  | rxsizeRead => exact .inr (.inr (.inr (.inr (.inr hq))))
  | xfer hd d n =>
    cases hi : decodeFrame s.cfg hd with
    | instr i => exact .inr (.inr (.inl ⟨hd, d, n, i, rfl, hi, by simpa [rbatTurn, fetch, hq, hi, turnOf] using h⟩))
    | reserved r => simp [rbatTurn, fetch, hq, hi, turnOf] at h
  | idle =>
    cases hr : s.req with
    | none => exact .inl ⟨rfl, rfl, by simpa [rbatTurn, fetch, hq, hr, eq_comm] using h⟩
    | some w =>
      cases hi : decodeReq w with
      | instr i => exact .inr (.inl ⟨w, i, rfl, rfl, hi, by simpa [rbatTurn, fetch, hq, hr, hi, turnOf] using h⟩)
      | reserved r => simp [rbatTurn, fetch, hq, hr, hi, turnOf] at h

/-- What the host's turn can answer with a next state: nothing done, or its next act on the state with that act taken. -/
theorem hostTurn_next {s t : State} (h : hostTurn s = .next t) :
    t = s ∨ ∃ a rest, s.inbox = a :: rest ∧ s.mustWait a = false ∧ State.hostAct { s with inbox := rest } a = .next t := by
  unfold hostTurn at h
  split at h
  · exact .inl (by simpa [eq_comm] using h)
  · rename_i a rest ha
    cases hw : s.mustWait a with
    | true => exact .inl (by simpa [hw, eq_comm] using h)
    | false => exact .inr ⟨a, rest, ha, hw, by simpa [hw] using h⟩

/-- A step is a turn of RBAT, then one of the host (log 7). -/
theorem step_next {s t : State} : step s = .next t ↔ ∃ u, rbatTurn s = .next u ∧ hostTurn u = .next t := by
  rw [step]
  cases rbatTurn s <;> simp

/-- An act of the host changes REQ and the streams only, or is a reset between operations (R102, R290). -/
theorem hostAct_next {s t : State} {a : HostAct} (h : s.hostAct a = .next t) :
    (∃ r i o, t = { s with req := r, din := i, dout := o }) ∨ (s.busy = false ∧ t = s.resetInput) := by
  cases a with
  | pause | await | putDin | takeDout => exact .inl ⟨_, _, _, (Host.Outcome.next.inj h).symm⟩
  | writeReq w =>
    obtain rfl := Host.Outcome.next.inj h
    cases hb : s.busy with
    | true => exact .inl ⟨s.req, s.din, s.dout, by simp [State.writeReq, hb]⟩
    | false => exact .inl ⟨some w, s.din, s.dout, by simp [State.writeReq, hb]⟩
  | reset =>
    cases hb : s.busy with
    | true => simp [State.hostAct, hb] at h
    | false => exact .inr ⟨rfl, by simpa [State.hostAct, hb, eq_comm] using h⟩

theorem hostAct_cfg {s t : State} {a : HostAct} (h : s.hostAct a = .next t) : t.cfg = s.cfg := by
  obtain ⟨r, i, o, rfl⟩ | ⟨_, rfl⟩ := hostAct_next h <;> rfl

theorem hostTurn_cfg {s t : State} (h : hostTurn s = .next t) : t.cfg = s.cfg := by
  rcases hostTurn_next h with rfl | ⟨a, rest, _, _, ha⟩
  · rfl
  · exact hostAct_cfg (s := { s with inbox := rest }) ha

theorem exec_cfg {i : Instr} {s t : State} (h : exec i s = .next t) : t.cfg = s.cfg := by
  rcases exec_next_eq h with rfl | rfl
  · rfl
  · simp [outcomeOf, effectOf]

theorem inLoop_cfg {s t : State} (hl : s.InLoop) (h : rbatTurn s = .next t) : t.cfg = s.cfg := by
  obtain ⟨_, _, off, n, u, _, rfl, ⟨_, rfl⟩ | ⟨_, rfl⟩⟩ := inLoop_next hl h <;> rfl

theorem rbatTurn_cfg {s t : State} (h : rbatTurn s = .next t) : t.cfg = s.cfg := by
  rcases rbatTurn_next h with ⟨_, _, rfl⟩ | ⟨w, i, _, _, _, he⟩ | ⟨hd, d, n, i, _, _, he⟩ | hl
  · rfl
  · exact exec_cfg (s := s.takeReq) he
  · exact exec_cfg he
  · exact inLoop_cfg hl h

/-- Settles O18: RBAT's turn and the host's turn each keep the configuration. -/
theorem configurationNeverChanges : Obligations.ConfigurationNeverChanges := by
  intro s t h
  obtain ⟨u, hu, ht⟩ := step_next.mp h
  exact (hostTurn_cfg ht).trans (rbatTurn_cfg hu)

/-- Settles O8: the turn is `fetch` of an idle state whose word decodes; the step adds the host's turn. -/
theorem stepRunsThePendingRequest : Obligations.StepRunsThePendingRequest := by
  intro s w i hq hr hi
  have ht : rbatTurn s = exec i { s with req := none } := by
    simp [rbatTurn, fetch, hq, hr, hi, turnOf, State.takeReq]
  cases he : exec i { s with req := none } <;> simp [step, ht, he]

/-- Settles O10: `exec_eq` drops every request while `BUSY = 1`. -/
theorem requestWhileBusyIsDropped : Obligations.RequestWhileBusyIsDropped := by
  intro s
  refine ⟨fun hb => ⟨fun w => ?_, fun i hi => ?_⟩, fun hb w => ?_⟩
  · simp [State.writeReq, hb]
  · simp [exec_eq, hi, hb]
  · simp [State.writeReq, hb]

/-- Settles O12, by evaluating the reset state. -/
theorem resetLeavesTheStatedValues : Obligations.ResetLeavesTheStatedValues := by
  unfold Obligations.ResetLeavesTheStatedValues
  decide

/-! ## Registers and streams: O24 to O27, O60 -/

/-- Settles O24: the updates of these instructions and of a read that goes on do not write RES. -/
theorem resIsLeftAlone : Obligations.ResIsLeftAlone := by
  refine ⟨fun i s t hi h => ?_, fun s t hl h hend => ?_⟩
  · rcases exec_next_eq h with rfl | rfl
    · exact ⟨rfl, rfl⟩
    · exact updateOf_res hi _
  · obtain ⟨_, _, off, n, u, _, rfl, ⟨_, rfl⟩ | ⟨hq, rfl⟩⟩ := inLoop_next hl h
    · exact ⟨rfl, rfl⟩
    · exact (State.compare_goesOn (hend.resolve_left hq)).2

/-- Settles O25: the updates of these instructions and of the loops do not write SEG*. -/
theorem segmentRegistersAreLeftAlone : Obligations.SegmentRegistersAreLeftAlone := by
  refine ⟨fun i s t hi h => ?_, fun s t hl h => ?_⟩
  · rcases exec_next_eq h with rfl | rfl
    · exact ⟨rfl, rfl⟩
    · exact updateOf_seg hi _
  · obtain ⟨_, _, off, n, u, _, rfl, ⟨_, rfl⟩ | ⟨_, rfl⟩⟩ := inLoop_next hl h <;> exact ⟨rfl, rfl⟩

/-- Settles O26, register by register from the updates. -/
theorem otherRegistersAreLeftAlone : Obligations.OtherRegistersAreLeftAlone := by
  refine ⟨fun i s t h => ?_, fun s t hl h => ?_⟩
  · rcases exec_next_eq h with rfl | rfl
    · simp
    · refine ⟨exec_cfg h, ?_, ?_, fun hi => ?_, fun hi hi' => ?_, fun hi hi' => ?_, fun hi hi' => ?_, fun hi => ?_⟩
      · simp [outcomeOf, effectOf]
      · simp [outcomeOf, effectOf]
      · exact updateOf_lines hi _
      · exact updateOf_ptr hi hi' _
      · exact updateOf_vprev hi hi' _
      · exact updateOf_k hi hi' _
      · simp [outcomeOf_frame hi, effectOf]
  · obtain ⟨_, _, off, n, u, _, rfl, ⟨hq, rfl⟩ | ⟨hq, rfl⟩⟩ := inLoop_next hl h <;> simp [hq]

/-- Settles O27: the streams move with the updates, whose draws have the length asked for. -/
theorem streamsMoveExactlyLen : Obligations.StreamsMoveExactlyLen := by
  refine ⟨fun i s t hs h => ?_, fun s t hl h => ?_, fun s d rest hi => ?_, fun s n rest hi => ?_⟩
  · obtain ⟨_, _, rfl⟩ := exec_next_startsIn hs h
    exact ⟨updateOf_din i _, updateOf_dout i _⟩
  · obtain ⟨_, _, off, n, u, _, rfl, ⟨_, rfl⟩ | ⟨_, rfl⟩⟩ := inLoop_next hl h <;> exact ⟨rfl, rfl⟩
  · simp [hostTurn, hi, State.mustWait, State.hostAct]
  · simp [hostTurn, hi, State.mustWait, State.hostAct]

/-- The three bits of STATUS (R30). -/
theorem State.status_bits (s : State) :
    s.status.getLsbD 2 = s.busy ∧ s.status.getLsbD 1 = s.csOe ∧ s.status.getLsbD 0 = s.csn := by
  rw [State.status]
  generalize s.busy = a, s.csOe = b, s.csn = c
  revert a b c
  decide

/-- Settles O60: the written marks move with the updates; a host that awaits is `mustWait`. -/
theorem hostReadsStatusAndResults : Obligations.HostReadsStatusAndResults := by
  refine ⟨fun s => ?_, fun s => ⟨rfl, rfl, rfl, rfl, rfl, rfl, rfl⟩, fun i s t hs h => ?_, fun s t hl h => ?_,
    fun s rest hi => ?_⟩
  · obtain ⟨h2, h1, h0⟩ := s.status_bits
    refine ⟨h2, h1, h0, by simp [State.busy], fun hv hl => ?_⟩
    have hb : s.busy = true := by simp [State.busy, seq_ne_idle_of_inLoop hl]
    rw [State.status, hb, hv.busyInit hb, hv.csnHigh]
    decide
  · obtain ⟨_, _, rfl⟩ := exec_next_startsIn hs h
    exact ⟨updateOf_resWritten hs, updateOf_segWritten i _⟩
  · obtain ⟨_, _, off, n, u, _, rfl, ⟨hq, rfl⟩ | ⟨hq, rfl⟩⟩ := inLoop_next hl h
    · simp [hq]
    · simp [State.compare_seq_idle (seq_ne_idle_of_inLoop hl), hq]
  · refine ⟨fun hw => ?_, fun hb hr => ?_⟩
    · have : s.mustWait .await = true := by
        simpa [State.mustWait, Option.isSome_iff_ne_none] using hw
      simp [hostTurn, hi, this]
    · simp [hostTurn, hi, State.mustWait, hb, hr, State.hostAct]

/-! ## Legal transactions (R67, R117, R118, R153) -/

/-- A transaction is legal whose control byte has its direction and a bank of the chip, and whose data is a run of the
chip space. -/
theorem legal_of_snCtl {x : Txn} {sock : Sock} {b : Bank} (hx : x.ctl = snCtl sock b x.isWrite)
    (hb : badCtlBank (snCtl sock b x.isWrite) = false) (hd : 1 ≤ x.data.length)
    (ha : x.addr.toNat + x.data.length ≤ 65536) : x.Legal :=
  ⟨List.length_pos_iff.mp hd, ha, by simp [hx], by simp [hx], by rw [hx, hb]⟩

/-- A transaction is legal whose control byte passes the tests of R152. -/
theorem legal_of_ctlChecks {x : Txn} (hc : ∀ c ∈ ctlChecks x.isWrite x.ctl, c.1 = false) (hd : 1 ≤ x.data.length)
    (ha : x.addr.toNat + x.data.length ≤ 65536) : x.Legal := by
  simp [ctlChecks, badCtlDir] at hc
  obtain ⟨hw, hdir, hb⟩ := hc
  exact ⟨List.length_pos_iff.mp hd, ha, hdir, hw, hb⟩

/-- The general bank with socket 0 is a bank of the chip. -/
theorem badCtlBank_genCtl (wr : Bool) : badCtlBank (genCtl wr) = false := by
  revert wr
  decide

/-- A frame that passes its tests is legal (R109, R153). -/
theorem frameWrite_legal {a : Word} {sock : Sock} {b : Bank} {d : List Byte} (hb : badCtlBank (snCtl sock b true) = false)
    (h : d.isEmpty = false ∧ runTooHigh a.toNat d.length = false) : (Txn.w a (snCtl sock b true) d).Legal := by
  simp [runTooHigh] at h
  exact legal_of_snCtl rfl hb (List.length_pos_iff.mpr h.1) h.2

theorem frameRead_legal {a : Word} {sock : Sock} {b : Bank} {s : State} (hb : badCtlBank (snCtl sock b false) = false)
    (h : (s.phaseLen == 0) = false ∧ runTooHigh a.toNat s.phaseLen = false) :
    (Txn.r a (snCtl sock b false) (s.nextBytes s.phaseLen)).Legal := by
  simp [runTooHigh] at h
  exact legal_of_snCtl rfl hb (by simp; omega) (by simpa using h.2)

/-- The address of a socket register does not pass the sum of its parts. -/
theorem toNat_regAddr_le (c : Cfg) (sock : Sock) (off : Word) :
    (regAddr c sock off).toNat ≤ (c.sregBase sock).toNat + off.toNat := by
  rw [regAddr, BitVec.toNat_add]
  exact Nat.mod_le _ _

theorem regRead_legal {c : Cfg} {sock : Sock} {off : Word} {d : List Byte} (hd : 1 ≤ d.length)
    (ha : (c.sregBase sock).toNat + off.toNat + d.length ≤ 65536) : (regRead c sock off d).Legal := by
  have := toNat_regAddr_le c sock off
  refine legal_of_snCtl (b := bankSreg) rfl (badCtlBank_snCtl _ _ _ (by decide)) hd ?_
  rw [Txn.addr_r, Txn.data_r]
  omega

theorem regWrite_legal {c : Cfg} {sock : Sock} {off : Word} {d : List Byte} (hd : 1 ≤ d.length)
    (ha : (c.sregBase sock).toNat + off.toNat + d.length ≤ 65536) : (regWrite c sock off d).Legal := by
  have := toNat_regAddr_le c sock off
  refine legal_of_snCtl (b := bankSreg) rfl (badCtlBank_snCtl _ _ _ (by decide)) hd ?_
  rw [Txn.addr_w, Txn.data_w]
  omega

/-- Two bytes at a register of the configuration lie in the chip space (R6). -/
theorem sreg_fits {c : Cfg} (hc : c.Ok) (sock : Sock) {off : Word} {n : Nat} (h : (off, n) ∈ c.regs) :
    (c.sregBase sock).toNat + off.toNat + 2 ≤ 65536 := by
  obtain ⟨_, _, hr, _⟩ := hc
  have := (hr sock).2 _ h
  simp only at this
  omega

theorem cfgRead_legal {c : Cfg} (hc : c.Ok) (sock : Sock) {off : Word} {n : Nat} {d : List Byte} (h : (off, n) ∈ c.regs)
    (hd : 1 ≤ d.length ∧ d.length ≤ 2) : (regRead c sock off d).Legal :=
  regRead_legal hd.1 (by have := sreg_fits hc sock h; omega)

theorem cfgWrite_legal {c : Cfg} (hc : c.Ok) (sock : Sock) {off : Word} {n : Nat} {d : List Byte} (h : (off, n) ∈ c.regs)
    (hd : 1 ≤ d.length ∧ d.length ≤ 2) : (regWrite c sock off d).Legal :=
  regWrite_legal hd.1 (by have := sreg_fits hc sock h; omega)

theorem txBase_fits {c : Cfg} (hc : c.Ok) (sock : Sock) : (c.txBase sock).toNat + 2048 ≤ 65536 := hc.1 sock

theorem rxBase_fits {c : Cfg} (hc : c.Ok) (sock : Sock) : (c.rxBase sock).toNat + 2048 ≤ 65536 := hc.2.1 sock

theorem bankTx_ne_zero {c : Cfg} (hc : c.Ok) : c.bankTx ≠ 0 := by
  obtain ⟨_, _, _, _, h, _⟩ := hc
  rcases h with h | h <;> rw [h] <;> decide

theorem bankRx_ne_zero {c : Cfg} (hc : c.Ok) : c.bankRx ≠ 0 := by
  obtain ⟨_, _, _, _, _, h, _⟩ := hc
  rcases h with h | h <;> rw [h] <;> decide

/-! ## The pieces of a translation (R192, R194) -/

/-- A translation is one piece, or two that meet at the end of the buffer. -/
theorem xlate_cases {S : Nat} (hS : 0 < S) (p n B : Nat) :
    ∃ o, o < S ∧ ((o + n ≤ S ∧ xlate p n S B = [(B + o, n)]) ∨
      (S < o + n ∧ xlate p n S B = [(B + o, S - o), (B, n - (S - o))])) := by
  refine ⟨p % S, Nat.mod_lt p hS, ?_⟩
  by_cases h : p % S + n > S
  · exact .inr ⟨h, by simp [xlate, h]⟩
  · exact .inl ⟨by omega, by simp [xlate, h]⟩

/-- No piece leaves the buffer, and no piece of a transfer of one byte or more is empty. -/
theorem xlate_within {p n S : Nat} (hS : 0 < S) (hn : n ≤ S) (B : Nat) :
    ∀ q ∈ xlate p n S B, B ≤ q.1 ∧ q.1 + q.2 ≤ B + S ∧ (1 ≤ n → 1 ≤ q.2) := by
  obtain ⟨o, ho, ⟨h, he⟩ | ⟨h, he⟩⟩ := xlate_cases hS p n B
  · simp [he]; omega
  · simp [he]; omega

/-- Segment registers that name bytes of one buffer (R21, R194), as `State.Inv` says it. -/
def Segs.Fit (g : Segs) : Prop :=
  g.seg1l.toNat + g.seg2l.toNat ≤ 2048 ∧ g.seg2a.toNat ≤ g.seg1a.toNat ∧
    g.seg1a.toNat + g.seg1l.toNat ≤ g.seg2a.toNat + 2048 ∧ g.seg2a.toNat + 2048 ≤ 65536

theorem setSegs_fit {n B : Nat} (hn : n ≤ 2048) (hB : B + 2048 ≤ 65536) (p : Nat) (s : State) :
    (s.setSegs (xlate p n 2048 B) B).seg.Fit := by
  obtain ⟨o, ho, ⟨h, he⟩ | ⟨h, he⟩⟩ := xlate_cases (S := 2048) (by decide) p n B
  · simp [he, Segs.Fit, firstPiece, secondLen]; omega
  · simp [he, Segs.Fit, firstPiece, secondLen]; omega

/-! ## Split transfers -/

/-- A read or write of one piece is legal. -/
theorem piece_legal {x : Txn} {sock : Sock} {b : Bank} {q : Nat × Nat} (hb : b ≠ 0) (hx : x.ctl = snCtl sock b x.isWrite)
    (ha : x.addr = BitVec.ofNat 16 q.1) (hd : x.data.length = q.2) (hq : 1 ≤ q.2 ∧ q.1 + q.2 ≤ 65536) : x.Legal := by
  refine legal_of_snCtl hx (badCtlBank_snCtl _ _ _ hb) (hd ▸ hq.1) ?_
  rw [ha, hd, BitVec.toNat_ofNat]
  omega

theorem readTxns_legal {sock : Sock} {b : Bank} {ps : List (Nat × Nat)} {bs : List Byte} (hb : b ≠ 0)
    (hp : ∀ q ∈ ps, 1 ≤ q.2 ∧ q.1 + q.2 ≤ 65536) (hl : bs.length = totalLen ps) :
    ∀ x ∈ readTxns (snCtl sock b false) ps bs, x.Legal := by
  induction ps generalizing bs with
  | nil => simp [readTxns]
  | cons q ps ih =>
    rw [totalLen_cons] at hl
    rw [readTxns, List.forall_mem_cons]
    refine ⟨piece_legal hb rfl rfl ?_ (hp q (by simp)), ih (fun r hr => hp r (by simp [hr])) (by simp [hl])⟩
    simp [hl]

theorem writeTxns_legal {sock : Sock} {b : Bank} {ps : List (Nat × Nat)} {bs : List Byte} (hb : b ≠ 0)
    (hp : ∀ q ∈ ps, 1 ≤ q.2 ∧ q.1 + q.2 ≤ 65536) (hl : bs.length = totalLen ps) :
    ∀ x ∈ writeTxns (snCtl sock b true) ps bs, x.Legal := by
  induction ps generalizing bs with
  | nil => simp [writeTxns]
  | cons q ps ih =>
    rw [totalLen_cons] at hl
    rw [writeTxns, List.forall_mem_cons]
    refine ⟨piece_legal hb rfl rfl ?_ (hp q (by simp)), ih (fun r hr => hp r (by simp [hr])) (by simp [hl])⟩
    simp [hl]

/-- A length that passes the tests of R211. -/
theorem len_of_ringChecks {size : Nat} {len : Word} (h : ∀ c ∈ ringChecks size len, c.1 = false) :
    1 ≤ len.toNat ∧ len.toNat ≤ size := by
  simp [ringChecks, lenIsZero, lenOverBuffer, ← BitVec.toNat_inj] at h
  omega

/-- A run that passes the tests of R152. -/
theorem run_of_runChecks {addr len : Word} (h : ∀ c ∈ runChecks addr len, c.1 = false) :
    1 ≤ len.toNat ∧ addr.toNat + len.toNat ≤ 65536 := by
  simp [runChecks, lenIsZero, runTooHigh, ← BitVec.toNat_inj] at h
  omega

/-- A socket register that passes the test of R176. -/
theorem reg_of_regChecks {c : Cfg} {sock : Sock} {off : Word} {n : Nat} (h : ∀ x ∈ regChecks c sock off n, x.1 = false) :
    (c.sregBase sock).toNat + off.toNat + n ≤ 65536 := by
  simpa [regChecks, runTooHigh] using h

theorem ringReads_legal {c : Cfg} (hc : c.Ok) (sock : Sock) (p : Word) {len : Word} {bs : List Byte}
    (hn : 1 ≤ len.toNat ∧ len.toNat ≤ 2048) (hl : bs.length = len.toNat) : ∀ x ∈ ringReads c sock p len bs, x.Legal := by
  refine readTxns_legal (bankRx_ne_zero hc) (fun q hq => ?_) (hl.trans (totalLen_xlate (by decide)).symm)
  have := xlate_within (by decide) hn.2 _ q hq
  have := rxBase_fits hc sock
  omega

theorem ringWrites_legal {c : Cfg} (hc : c.Ok) (sock : Sock) (p : Word) {len : Word} {bs : List Byte}
    (hn : 1 ≤ len.toNat ∧ len.toNat ≤ 2048) (hl : bs.length = len.toNat) : ∀ x ∈ ringWrites c sock p len bs, x.Legal := by
  refine writeTxns_legal (bankTx_ne_zero hc) (fun q hq => ?_) (hl.trans (totalLen_xlate (by decide)).symm)
  have := xlate_within (by decide) hn.2 _ q hq
  have := txBase_fits hc sock
  omega

/-- An instruction that passes its tests does legal transactions only. -/
theorem txnsOf_legal {i : Instr} {s : State} (hc : s.cfg.Ok) (ht : ∀ c ∈ testsOf i s, c.1 = false) :
    ∀ x ∈ txnsOf i s, x.Legal := by
  obtain ⟨hcr, hfsr, hwr, hrsr, hrd⟩ := mem_regs s.cfg
  cases i with simp only [txnsOf, testsOf, List.forall_mem_append, List.forall_mem_cons, List.not_mem_nil, false_implies,
    implies_true, and_true] at ht ⊢
  | wr1 ctl addr dat => exact legal_of_ctlChecks ht (by simp) (by simp; omega)
  | rd1 ctl addr => exact legal_of_ctlChecks ht (by simp) (by simp; omega)
  | wrn ctl addr len =>
    obtain ⟨⟨hctl, hrun⟩, hdin⟩ := ht
    have := run_of_runChecks hrun
    have := le_of_dinChecks hdin
    exact legal_of_ctlChecks hctl (by simp; omega) (by simp; omega)
  | rdn ctl addr len =>
    obtain ⟨hctl, hrun⟩ := ht
    have := run_of_runChecks hrun
    exact legal_of_ctlChecks hctl (by simp; omega) (by simp; omega)
  | snwr1 sock off dat => exact regWrite_legal (by simp) (by simpa using reg_of_regChecks ht)
  | snrd1 sock off => exact regRead_legal (by simp) (by simpa using reg_of_regChecks ht)
  | snwr2 sock off dat => exact regWrite_legal (by simp) (by simpa using reg_of_regChecks ht)
  | snrd2 sock off => exact regRead_legal (by simp) (by simpa using reg_of_regChecks ht)
  | rddata sock src len => exact ringReads_legal hc sock src (len_of_ringChecks ht) (by simp)
  | send sock len =>
    obtain ⟨hlen, hdin⟩ := ht
    exact ⟨⟨cfgRead_legal hc sock hwr (by simp),
      ringWrites_legal hc sock _ (len_of_ringChecks hlen) (by simpa using le_of_dinChecks hdin)⟩,
      cfgWrite_legal hc sock hwr (by simp)⟩
  | sendofs sock offset len =>
    obtain ⟨hlen, hdin⟩ := ht
    exact ringWrites_legal hc sock _ (len_of_ringChecks hlen) (by simpa using le_of_dinChecks hdin)
  | recv sock peek len =>
    refine ⟨⟨cfgRead_legal hc sock hrd (by simp), ringReads_legal hc sock _ (len_of_ringChecks ht) (by simp)⟩, ?_⟩
    cases peek with
    | true => simp
    | false => simpa using cfgWrite_legal hc sock hrd (by simp)
  | execCmd sock cmd => exact ⟨cfgWrite_legal hc sock hcr (by simp), cfgRead_legal hc sock hcr (by simp)⟩
  | txfree sock => exact ⟨cfgRead_legal hc sock hfsr (by simp), cfgRead_legal hc sock hfsr (by simp)⟩
  | rxsize sock => exact ⟨cfgRead_legal hc sock hrsr (by simp), cfgRead_legal hc sock hrsr (by simp)⟩
  | fWrGen a => exact frameWrite_legal (badCtlBank_genCtl true) ht
  | fWrSreg a sock => exact frameWrite_legal (badCtlBank_snCtl _ _ _ (by decide)) ht
  | fWrTxb a sock => exact frameWrite_legal (badCtlBank_snCtl _ _ _ (bankTx_ne_zero hc)) ht
  | fRdGen a => exact frameRead_legal (badCtlBank_genCtl false) ht
  | fRdSreg a sock => exact frameRead_legal (badCtlBank_snCtl _ _ _ (by decide)) ht
  | fRdRxb a sock => exact frameRead_legal (badCtlBank_snCtl _ _ _ (bankRx_ne_zero hc)) ht

/-! ## The invariant -/

/-- An instruction that passes its tests leaves segment registers that name bytes of one buffer (R194). -/
theorem updateOf_segFit {i : Instr} {s u : State} (hc : s.cfg.Ok) (ht : ∀ c ∈ testsOf i s, c.1 = false)
    (hu : u.cfg = s.cfg) (hs : u.segWritten = true → u.seg.Fit) :
    (updateOf i u).segWritten = true → (updateOf i u).seg.Fit := by
  cases hw : i.writesSegs with
  | false =>
    obtain ⟨h1, h2⟩ := updateOf_seg hw u
    rwa [h1, h2]
  | true =>
    intro _
    have hrx := fun sock => hu ▸ rxBase_fits hc sock
    have htx := fun sock => hu ▸ txBase_fits hc sock
    cases i with simp only [testsOf, List.forall_mem_append] at ht
    | xlate p n base =>
      simp [lenOverBuffer, baseTooHigh] at ht
      exact setSegs_fit ht.1 (by omega) _ u
    | rddata sock src len => exact setSegs_fit (len_of_ringChecks ht).2 (hrx sock) _ u
    | send sock len => exact setSegs_fit (len_of_ringChecks ht.1).2 (htx sock) _ u
    | sendofs sock offset len => exact setSegs_fit (len_of_ringChecks ht.1).2 (htx sock) _ u
    | recv sock peek len => exact setSegs_fit (len_of_ringChecks ht).2 (hrx sock) _ u
    | _ => simp [Instr.writesSegs] at hw

/-- An instruction that does not leave `SEQ` idle is an operation of the bus and leaves it in its own loop (R22, R26). -/
theorem updateOf_seq_opCode {i : Instr} {s : State} (hs : StartsIn i s) (hq : (updateOf i s).seq ≠ .idle) :
    i.isRequest = true ∧ i.usesBus = true ∧ (updateOf i s).seq.opCode = some (fieldsOf i).op := by
  obtain h | ⟨sock, cmd, rfl, h⟩ | ⟨sock, rfl, h⟩ | ⟨sock, rfl, h⟩ := updateOf_seq hs
  · exact absurd h hq
  all_goals
    rw [h]
    exact ⟨rfl, rfl, rfl⟩

/-- Registers that change keep the invariant where the lines, `SEQ` and the segment registers do. -/
theorem State.Inv.withRegs {s u : State} (hs : s.Inv) (hcfg : u.cfg = s.cfg) (hmem : u.chipMem = s.chipMem)
    (htr : u.trace = s.trace) (hw : u.wire = s.wire) (hcsn : u.csn = true) (hb : u.busy = true → u.csOe = true)
    (hop : ∀ c, u.seq.opCode = some c → u.opnd.op = c) (hseg : u.segWritten = true → u.seg.Fit) : u.Inv where
  cfgOk := hcfg ▸ hs.cfgOk
  csnHigh := hcsn
  busyInit := hb
  seqOp := hop
  memWf := hmem ▸ hs.memWf
  memTrace := by rw [hmem, htr, hs.memTrace]
  wireTrace := by rw [hw, htr, hcfg, hs.wireTrace]
  legal := htr ▸ hs.legal
  segFit := hseg

/-- Legal transactions keep the invariant. -/
theorem State.Inv.did_drew {s : State} (hs : s.Inv) (n : Nat) {ts : List Txn} (hl : ∀ x ∈ ts, x.Legal) :
    ((s.drew n).did ts).Inv where
  cfgOk := hs.cfgOk
  csnHigh := hs.csnHigh
  busyInit := hs.busyInit
  seqOp := hs.seqOp
  memWf := wf_memAfter ts _ hs.memWf
  memTrace := by simp [memAfter_append, ← hs.memTrace]
  wireTrace := by simp [wireOf_append, ← hs.wireTrace]
  legal := List.forall_mem_append.mpr ⟨hs.legal, hl⟩
  segFit := hs.segFit

/-- The registers after an instruction that starts and passes its tests meet the invariant. -/
theorem State.Inv.updated {i : Instr} {s : State} (hs : s.Inv) (hst : StartsIn i s)
    (hb : i.usesBus = true → s.csOe = true ∧ s.csn = true) (ht : ∀ c ∈ testsOf i s, c.1 = false) :
    (updateOf i (s.sample (operandsOf i s))).Inv := by
  have hloop := updateOf_seq_opCode (s := s.sample (operandsOf i s)) hst
  refine hs.withRegs (by simp) (by simp) (by simp) (by simp) ?_ (fun hbusy => ?_) (fun c hop => ?_)
    (updateOf_segFit hs.cfgOk ht rfl hs.segFit)
  · by_cases hi : i = .init
    · subst hi
      rfl
    · exact (updateOf_lines hi _).2.trans hs.csnHigh
  · obtain ⟨_, hu, _⟩ := hloop (by simpa [State.busy] using hbusy)
    rw [(updateOf_lines (by rintro rfl; simp [Instr.usesBus] at hu) _).1]
    exact (hb hu).1
  · obtain ⟨hr, _, hc⟩ := hloop (fun hq => by simp [hq, Seq.opCode] at hop)
    simpa [operandsOf, hr] using Option.some.inj (hc.symm.trans hop)

/-- Every instruction keeps the invariant. -/
theorem exec_inv {i : Instr} {s t : State} (hs : s.Inv) (h : exec i s = .next t) : t.Inv := by
  rcases exec_next.mp h with ⟨_, _, rfl⟩ | ⟨hst, hb, ht, rfl⟩
  · exact hs
  · exact (hs.updated hst hb ht).did_drew _ (by simpa using txnsOf_legal hs.cfgOk ht)

/-- Every further turn of a loop keeps the invariant. -/
theorem inLoop_inv {s t : State} (hs : s.Inv) (hl : s.InLoop) (h : rbatTurn s = .next t) : t.Inv := by
  obtain ⟨hoe, _, off, n, u, hreg, rfl, hu⟩ := inLoop_next hl h
  have hn : 1 ≤ n ∧ n ≤ 2 := by
    simp [Cfg.regs] at hreg
    omega
  refine State.Inv.did_drew ?_ n ?_
  · have hseq : u.seq = .idle ∨ u.seq = s.seq := by
      rcases hu with ⟨hq, rfl⟩ | ⟨_, rfl⟩
      · rw [State.setSeq_seq, hq]
        split <;> simp
      · by_cases hq : (s.compare s.nextWord s.seq).seq = .idle
        · exact .inl hq
        · exact .inr (State.compare_goesOn hq).1
    have hframe : u = { s with seq := u.seq, res := u.res, resWritten := u.resWritten, vprev := u.vprev } := by
      rcases hu with ⟨_, rfl⟩ | ⟨_, rfl⟩ <;> rfl
    rw [hframe]
    refine hs.withRegs rfl rfl rfl rfl hs.csnHigh (fun _ => hoe) (fun c hop => ?_) hs.segFit
    rcases hseq with hq | hq
    · simp [hq, Seq.opCode] at hop
    · exact hs.seqOp c (by simpa [hq] using hop)
  · have : u.cfg = s.cfg := by rcases hu with ⟨_, rfl⟩ | ⟨_, rfl⟩ <;> rfl
    simpa using cfgRead_legal hs.cfgOk s.sock hreg (d := s.nextBytes n) (by simpa using hn)

/-- Taking the request keeps the invariant. -/
theorem State.Inv.takeReq {s : State} (hs : s.Inv) : s.takeReq.Inv :=
  hs.withRegs rfl rfl rfl rfl hs.csnHigh hs.busyInit hs.seqOp hs.segFit

theorem rbatTurn_inv {s t : State} (hs : s.Inv) (h : rbatTurn s = .next t) : t.Inv := by
  rcases rbatTurn_next h with ⟨_, _, rfl⟩ | ⟨w, i, _, _, _, he⟩ | ⟨hd, d, n, i, _, _, he⟩ | hl
  · exact hs
  · exact exec_inv hs.takeReq he
  · exact exec_inv hs he
  · exact inLoop_inv hs hl h

/-- Settles O14: REFCFG meets its constraints, nothing is in progress and nothing has been done. -/
theorem resetMeetsTheInvariant : Obligations.ResetMeetsTheInvariant where
  cfgOk := by decide
  csnHigh := rfl
  busyInit := by decide
  seqOp := by simp [State.reset, Seq.opCode]
  memWf := rfl
  memTrace := rfl
  wireTrace := rfl
  legal := by simp [State.reset]
  segFit := by simp [State.reset]

/-- Reset between operations keeps the invariant: the configuration stays, the rest is the reset state. -/
theorem State.Inv.resetInput {s : State} (hs : s.Inv) : s.resetInput.Inv :=
  { resetMeetsTheInvariant with cfgOk := hs.cfgOk, wireTrace := rfl }

/-- An act of the host keeps the invariant. -/
theorem hostAct_inv {s t : State} {a : HostAct} (hs : s.Inv) (h : s.hostAct a = .next t) : t.Inv := by
  obtain ⟨r, i, o, rfl⟩ | ⟨_, rfl⟩ := hostAct_next h
  · exact hs.withRegs rfl rfl rfl rfl hs.csnHigh hs.busyInit hs.seqOp hs.segFit
  · exact hs.resetInput

theorem hostTurn_inv {s t : State} (hs : s.Inv) (h : hostTurn s = .next t) : t.Inv := by
  rcases hostTurn_next h with rfl | ⟨a, rest, _, _, ha⟩
  · exact hs
  · exact hostAct_inv (s := { s with inbox := rest })
      (hs.withRegs rfl rfl rfl rfl hs.csnHigh hs.busyInit hs.seqOp hs.segFit) ha

/-- Settles O15: RBAT's turn and the host's turn each keep the invariant. -/
theorem stepKeepsTheInvariant : Obligations.StepKeepsTheInvariant := by
  intro s t hs h
  obtain ⟨u, hu, ht⟩ := step_next.mp h
  exact hostTurn_inv (rbatTurn_inv hs hu) ht

/-! ## Hidden state (R35) -/

theorem State.forgetDead_did (s : State) (ts : List Txn) : (s.did ts).forgetDead = s.forgetDead.did ts := by
  simp only [State.forgetDead, State.did_seq]
  cases s.seq <;> rfl

theorem State.forgetDead_drew (s : State) (n : Nat) : (s.drew n).forgetDead = s.forgetDead.drew n := by
  simp only [State.forgetDead, State.drew_seq]
  cases s.seq <;> rfl

/-- Two bus accesses with the same tests answer the same up to dead registers where their effects do. -/
theorem forgetHidden_onBus {cs : List (Bool × Refusal)} {s s' : State} {e e' : State → State} (hoe : s'.csOe = s.csOe)
    (hcsn : s'.csn = s.csn) (he : s.csn = true → (e' s').forgetDead = (e s).forgetDead) :
    forgetHidden (onBus cs s' e') = forgetHidden (onBus cs s e) := by
  rw [onBus, onBus, hoe, hcsn]
  cases firstRefusal ((!s.csOe, .notInit) :: cs) with
  | some r => rfl
  | none =>
    cases hc : s.csn with
    | false => rfl
    | true => simp [forgetHidden, he hc]

theorem forgetHidden_guarded {cs : List (Bool × Refusal)} {s s' : State} {e e' : State → State}
    (he : (e' s').forgetDead = (e s).forgetDead) : forgetHidden (guarded cs s' e') = forgetHidden (guarded cs s e) := by
  rw [guarded, guarded]
  cases firstRefusal cs with
  | some r => rfl
  | none => simp [forgetHidden, he]

/-- Registers that are dead in a state do not show in it: all four when it is idle, `PTR`, `VPREV` and `k` at EXEC's poll, `PTR` and
`k` in any loop. -/
theorem State.forgetDead_withHidden {t : State} {o : Operands} {v : Word} (p : Word) (n : Nat)
    (h : t.seq = .idle ∨ (o = t.opnd ∧ (t.seq = .execPoll ∨ (t.InLoop ∧ v = t.vprev)))) :
    (t.withHidden o p v n).forgetDead = t.forgetDead := by
  have hq : (t.withHidden o p v n).seq = t.seq := rfl
  rw [State.forgetDead, State.forgetDead, hq]
  rcases h with h | ⟨rfl, h | ⟨h | h | h, rfl⟩⟩ <;> rw [h] <;> rfl

section

variable (i : Instr) (s : State) (o : Operands) (p v : Word) (n : Nat)

theorem testsOf_withHidden : testsOf i (s.withHidden o p v n) = testsOf i s := by cases i <;> rfl
theorem txnsOf_withHidden : txnsOf i (s.withHidden o p v n) = txnsOf i s := by cases i <;> rfl
theorem drawsOf_withHidden : drawsOf i (s.withHidden o p v n) = drawsOf i s := by cases i <;> rfl

/-- Other hidden registers before an instruction change none but hidden registers after it. -/
theorem updateOf_withHidden :
    updateOf i (s.withHidden o p v n) = (updateOf i s).withHidden o (updateOf i (s.withHidden o p v n)).ptr
      (updateOf i (s.withHidden o p v n)).vprev (updateOf i (s.withHidden o p v n)).k := by
  cases i <;> rfl

end

/-- What an instruction leaves does not depend on the hidden registers it found, those apart that are dead in it. -/
theorem outcomeOf_withHidden {i : Instr} {s : State} (hs : StartsIn i s) (o : Operands) (p v : Word) (n : Nat) :
    (outcomeOf i (s.withHidden o p v n)).forgetDead = (outcomeOf i s).forgetDead := by
  have hu : (s.withHidden o p v n).sample (operandsOf i (s.withHidden o p v n)) =
      (s.sample (operandsOf i s)).withHidden (operandsOf i (s.withHidden o p v n)) p v n := rfl
  rw [outcomeOf, outcomeOf, hu, effectOf, effectOf, txnsOf_withHidden, drawsOf_withHidden, State.forgetDead_did,
    State.forgetDead_did, State.forgetDead_drew, State.forgetDead_drew, updateOf_withHidden, State.forgetDead_withHidden]
  obtain h | ⟨sock, cmd, rfl, h⟩ | ⟨sock, rfl, h⟩ | ⟨sock, rfl, h⟩ := updateOf_seq (s := s.sample (operandsOf i s)) hs
  · exact .inl h
  · exact .inr ⟨rfl, .inl h⟩
  · exact .inr ⟨rfl, .inr ⟨.inr (.inl h), rfl⟩⟩
  · exact .inr ⟨rfl, .inr ⟨.inr (.inr h), rfl⟩⟩

/-- A poll reads none of `PTR`, `VPREV` and `k`. -/
theorem pollCommand_withHidden {s : State} (hc : s.csn = true) (p v : Word) (n : Nat) :
    (pollCommand (s.withHidden s.opnd p v n)).forgetDead = (pollCommand s).forgetDead := by
  have hw : pollCommand (s.withHidden s.opnd p v n) = (pollCommand s).withHidden s.opnd p v n := by
    rw [pollCommand_high hc, pollCommand_high (by exact hc)]
    rfl
  rw [hw, State.forgetDead_withHidden]
  rw [pollCommand_high hc]
  by_cases h : byteOfBytes (s.nextBytes 1) = 0
  · exact .inl (by simp [h])
  · exact .inr ⟨rfl, .inl (by simpa using h)⟩

/-- A compare read reads neither `PTR` nor `k`. -/
theorem compareRead_withHidden {s : State} (hc : s.csn = true) (off : Word) {again : Seq}
    (ha : again = .txfreeRead ∨ again = .rxsizeRead) (p : Word) (n : Nat) :
    (compareRead off again (s.withHidden s.opnd p s.vprev n)).forgetDead = (compareRead off again s).forgetDead := by
  have hw : compareRead off again (s.withHidden s.opnd p s.vprev n) =
      (compareRead off again s).withHidden s.opnd p (compareRead off again s).vprev n := by
    rw [compareRead_high hc, compareRead_high (by exact hc)]
    rfl
  rw [hw, State.forgetDead_withHidden]
  rw [compareRead_high hc]
  by_cases h : (s.compare (wordOfBytes (s.nextBytes 2)) again).seq = .idle
  · exact .inl h
  · refine .inr ⟨rfl, .inr ⟨.inr ?_, rfl⟩⟩
    rw [State.did_seq, State.drew_seq, (State.compare_goesOn h).1]
    exact ha

/-- Settles O23: an outcome depends on hidden registers in dead registers only, and a poll or compare read likewise. -/
theorem hiddenStateIsDeadWhenIdle : Obligations.HiddenStateIsDeadWhenIdle := by
  refine ⟨fun i s o p v n hs => ?_, fun s p v n hl => ?_⟩
  · have hb : (s.withHidden o p v n).busy = s.busy := rfl
    rw [exec_eq, exec_eq, testsOf_withHidden, hb]
    have he := outcomeOf_withHidden hs o p v n
    split
    · simp_all [StartsIn, State.busy]
    · split
      · exact forgetHidden_onBus rfl rfl fun _ => he
      · exact forgetHidden_guarded he
  · rcases hl with hq | hq | hq
    · rw [rbatTurn_execPoll hq, rbatTurn_execPoll (by exact hq), if_pos hq]
      exact forgetHidden_onBus rfl rfl fun hc => pollCommand_withHidden hc p v n
    · rw [rbatTurn_txfreeRead hq, rbatTurn_txfreeRead (by exact hq), if_neg (by simp [hq])]
      exact forgetHidden_onBus rfl rfl fun hc => compareRead_withHidden hc _ (.inl rfl) p n
    · rw [rbatTurn_rxsizeRead hq, rbatTurn_rxsizeRead (by exact hq), if_neg (by simp [hq])]
      exact forgetHidden_onBus rfl rfl fun hc => compareRead_withHidden hc _ (.inr rfl) p n

end Sys2Proof.Machine

/-! # The chip space and the table of transactions (20_memory) -/

namespace Sys2Proof.Machine

/-! ## Chip locations (R61) -/

/-- Bits [7:3] of a control byte as a number. -/
theorem toNat_ctl_shiftRight (c : Byte) : (c >>> 3).toNat = c.toNat / 8 := by
  rw [BitVec.toNat_ushiftRight, Nat.shiftRight_eq_div_pow]

/-- Settles O7: a location is a bank and an address in base 65536, and an address is one digit. -/
theorem locationIsBankAndAddress : Obligations.LocationIsBankAndAddress := by
  intro c c' a a'
  rw [locOf_eq, locOf_eq, ← BitVec.toNat_inj, ← BitVec.toNat_inj, toNat_ctl_shiftRight, toNat_ctl_shiftRight]
  have := a.isLt
  have := a'.isLt
  omega

/-! ## How many transactions, and how long (R69) -/

/-- Direction and data length of a transaction, as the table of R69 gives them. -/
def Txn.shape (x : Txn) : Bool × Nat := (x.isWrite, x.data.length)

@[simp] theorem Txn.shape_w (a : Word) (c : Byte) (d : List Byte) : (Txn.w a c d).shape = (true, d.length) := rfl
@[simp] theorem Txn.shape_r (a : Word) (c : Byte) (d : List Byte) : (Txn.r a c d).shape = (false, d.length) := rfl

/-- A ring read of LEN bytes moves the length of each piece. -/
theorem ringReads_shape (c : Cfg) (sock : Sock) (p : Word) {len : Word} {bs : List Byte} (h : bs.length = len.toNat) :
    (ringReads c sock p len bs).map Txn.shape = (rxPieces c sock p len).map fun q => (false, q.2) :=
  readTxns_shape _ _ _ (h.trans (totalLen_xlate (by decide)).symm)

/-- A ring write of LEN bytes moves the length of each piece. -/
theorem ringWrites_shape (c : Cfg) (sock : Sock) (p : Word) {len : Word} {bs : List Byte} (h : bs.length = len.toNat) :
    (ringWrites c sock p len bs).map Txn.shape = (txPieces c sock p len).map fun q => (true, q.2) :=
  writeTxns_shape _ _ _ (h.trans (totalLen_xlate (by decide)).symm)

/-- `DIN` gives LEN bytes where its test is passed, alone or after other tests (R32). -/
theorem length_take_din {s : State} {len : Word} {cs : List (Bool × Refusal)}
    (h : ∀ c ∈ cs ++ dinChecks s len, c.1 = false) : (s.din.take len.toNat).length = len.toNat :=
  List.length_take_of_le (le_of_dinChecks (List.forall_mem_append.mp h).2)

/-- The transactions of an instruction that passes its tests are those of the table. -/
theorem txnsOf_shape {i : Instr} {s : State} (ht : ∀ c ∈ testsOf i s, c.1 = false) :
    (txnsOf i s).map Txn.shape = shapeOf i s := by
  cases i with
  | wrn ctl addr len => simpa [txnsOf, shapeOf] using length_take_din ht
  | rddata sock src len => exact ringReads_shape _ _ _ (by simp)
  | sendofs sock offset len => exact ringWrites_shape _ _ _ (length_take_din ht)
  | send sock len => simp [txnsOf, shapeOf, ringWrites_shape _ _ _ (length_take_din ht), State.nextWord]
  | recv sock peek len => cases peek <;> simp [txnsOf, shapeOf, ringReads_shape, State.nextWord]
  | _ => simp [txnsOf, shapeOf]

/-- What an instruction adds to TRACE. -/
theorem outcomeOf_trace (i : Instr) (s : State) : (outcomeOf i s).trace = s.trace ++ txnsOf i s := by
  simp [outcomeOf, effectOf]

/-- A turn inside a loop adds one read to TRACE: of one byte with EXEC, of two with TXFREE and RXSIZE (R244, R246). -/
theorem inLoop_trace {s t : State} (hl : s.InLoop) (h : rbatTurn s = .next t) :
    ∃ off : Word, t.trace = s.trace ++ [regRead s.cfg s.sock off (s.nextBytes (if s.seq = .execPoll then 1 else 2))] := by
  obtain ⟨_, hc, ⟨hq, rfl⟩ | ⟨hq, rfl⟩ | ⟨hq, rfl⟩⟩ := (rbatTurn_inLoop_next hl).mp h
  · exact ⟨_, by rw [pollCommand_high hc, if_pos hq]; rfl⟩
  · exact ⟨_, by rw [compareRead_high hc, if_neg (by simp [hq])]; rfl⟩
  · exact ⟨_, by rw [compareRead_high hc, if_neg (by simp [hq])]; rfl⟩

/-- Settles O21: an instruction that starts adds `txnsOf` to TRACE, a turn inside a loop one read. -/
theorem transactionsAreCountedByTheTable : Obligations.TransactionsAreCountedByTheTable := by
  refine ⟨fun i s t hs h => ?_, fun s t hl h => ?_⟩
  · obtain ⟨_, ht, rfl⟩ := exec_next_startsIn hs h
    exact ⟨txnsOf i s, outcomeOf_trace i s, txnsOf_shape ht⟩
  · obtain ⟨off, ht⟩ := inLoop_trace hl h
    exact ⟨_, ht, rfl, State.nextBytes_length _ _⟩

/-! ## Locations outside the stored runs (R66, R146, R213) -/

/-- A write leaves every location outside a run that holds its data alone. -/
theorem read_write_outside {a : Word} {c : Byte} {d : List Byte} {n x : Nat} (hd : d.length ≤ n)
    (h : Run.misses (locOf c a.toNat, n) x) (m : Memory) : Memory.read x (memAfter [.w a c d] m) = Memory.read x m := by
  simp only [Run.misses] at h
  exact Memory.read_writeRun_outside d m (by omega)

/-- A ring write leaves every location outside its pieces alone. -/
theorem read_ringWrites_outside {c : Cfg} (hc : c.Ok) {sock : Sock} {p len : Word} {x : Nat}
    (h : ∀ r ∈ (txPieces c sock p len).map fun q => (locOf (snCtl sock c.bankTx true) q.1, q.2), Run.misses r x)
    (bs : List Byte) (m : Memory) : Memory.read x (memAfter (ringWrites c sock p len bs) m) = Memory.read x m :=
  read_writeTxns_outside _ _ _ _ _ (xlate_fst_lt (by decide) (txBase_fits hc sock))
    fun q hq => h _ (List.mem_map_of_mem hq)

/-- The transactions of an instruction leave every location outside its stored runs alone. -/
theorem read_txnsOf_outside {i : Instr} {s : State} (hc : s.cfg.Ok) {x : Nat}
    (h : ∀ r ∈ storedRuns i s, Run.misses r x) (m : Memory) :
    Memory.read x (memAfter (txnsOf i s) m) = Memory.read x m := by
  cases i with simp only [storedRuns, List.forall_mem_cons, List.not_mem_nil, false_implies, implies_true, and_true] at h
  | wr1 | wrn | snwr1 | snwr2 | fWrGen | fWrSreg | fWrTxb => exact read_write_outside (by simp) h m
  | rddata sock src len => exact congrArg _ (memAfter_readTxns _ _ _ _)
  | send sock len =>
    obtain ⟨hptr, hring⟩ := h
    rw [txnsOf, memAfter_append, memAfter_append, read_write_outside (by simp) hptr]
    exact read_ringWrites_outside hc hring _ _
  | sendofs sock offset len => exact read_ringWrites_outside hc h _ m
  | recv sock peek len =>
    rw [txnsOf, memAfter_append, memAfter_append, ringReads, memAfter_readTxns]
    cases peek with
    | true => rfl
    | false => exact read_write_outside (by simp) (h _ (List.mem_singleton_self _)) m
  | execCmd sock cmd => exact read_write_outside (d := [cmd]) (by simp) h m
  | _ => rfl

/-- What an instruction leaves in the chip space. -/
theorem outcomeOf_chipMem (i : Instr) (s : State) : (outcomeOf i s).chipMem = memAfter (txnsOf i s) s.chipMem := by
  simp [outcomeOf, effectOf]

/-- A turn inside a loop leaves the chip space alone. -/
theorem inLoop_chipMem {s t : State} (hl : s.InLoop) (h : rbatTurn s = .next t) : t.chipMem = s.chipMem := by
  obtain ⟨_, _, off, n, u, _, rfl, ⟨_, rfl⟩ | ⟨_, rfl⟩⟩ := inLoop_next hl h <;> rfl

/-- Settles O28: what an instruction leaves in the chip space is what its transactions store. -/
theorem otherChipLocationsAreLeftAlone : Obligations.OtherChipLocationsAreLeftAlone := by
  refine ⟨fun i s t hc h a ha => ?_, fun s t hl h a => by rw [inLoop_chipMem hl h]⟩
  rcases exec_next_eq h with rfl | rfl
  · rfl
  · rw [outcomeOf_chipMem]
    exact read_txnsOf_outside hc ha _

end Sys2Proof.Machine

/-! # Words and frames (30_encoding) -/

namespace Sys2Proof.Machine

/-! ## Request words (R101 to R107)

Decoding and encoding are inverse on the fields of a word; `splitWord` and `joinWord` carry that over to words. -/

theorem ifZero_eq_instr {z : Bool} {i j : Instr} : ifZero z i = .instr j ↔ z = true ∧ i = j := by
  cases z <;> simp [ifZero]

/-- The fields of a request decode to it. -/
theorem decodeFields_fieldsOf {i : Instr} (hi : i.isRequest = true) : decodeFields (fieldsOf i) = .instr i := by
  cases i with
  | fRdGen | fWrGen | fRdSreg | fWrSreg | fWrTxb | fRdRxb => contradiction
  | _ => simp [fieldsOf, decodeFields, ifZero]

/-- Fields that decode are those of the request they decode to. -/
theorem fieldsOf_of_decodeFields {o : Operands} {i : Instr} (h : decodeFields o = .instr i) :
    i.isRequest = true ∧ fieldsOf i = o := by
  obtain ⟨op, sel, addr, len, dat⟩ := o
  unfold decodeFields at h
  split at h
  case h_18 => contradiction
  all_goals
    rename_i hop
    obtain ⟨_, rfl⟩ := BitVec.toNat_eq_nat.mp hop
    obtain ⟨hz, rfl⟩ := ifZero_eq_instr.mp h
    simp [selPlain_iff, selPeekable_iff, datHighZero_iff] at hz
    simp [Instr.isRequest, fieldsOf, hz]

/-- A word is the join of its fields and of no others. -/
theorem joinWord_eq_iff {o : Operands} {w : ReqWord} : joinWord o = w ↔ o = splitWord w :=
  ⟨fun h => by rw [← h, splitWord_joinWord], fun h => by rw [h, joinWord_splitWord]⟩

/-- Settles O2: a word is its fields, and the fields that decode to a request are the request's. -/
theorem requestWordHasOneMeaning : Obligations.RequestWordHasOneMeaning := by
  intro w i
  rw [encodeReq, joinWord_eq_iff, decodeReq]
  exact ⟨fieldsOf_of_decodeFields, fun ⟨hi, hw⟩ => hw ▸ decodeFields_fieldsOf hi⟩

/-- The word of a request decodes to it. -/
theorem decodeReq_encodeReq {i : Instr} (hi : i.isRequest = true) : decodeReq (encodeReq i) = .instr i :=
  (requestWordHasOneMeaning _ i).mpr ⟨hi, rfl⟩

/-! ## The rows of the table (R104, R106)

A must-be-zero test of the decoder is a mask of one field, and the mask of a row is its fields' masks. -/

/-- Fixed bits and mask of each request row, field by field (R101, R104). -/
def rowFields : List (Operands × Operands) :=
  [(⟨0x01, 0, 0, 0, 0⟩, ⟨0xFF, 0xFF, 0xFFFF, 0xFFFF, 0xFFFF⟩),
   (⟨0x02, 0, 0, 0, 0⟩, ⟨0xFF, 0, 0, 0xFFFF, 0xFF00⟩),
   (⟨0x03, 0, 0, 0, 0⟩, ⟨0xFF, 0, 0, 0, 0xFFFF⟩),
   (⟨0x04, 0, 0, 0, 0⟩, ⟨0xFF, 0, 0, 0xFFFF, 0xFFFF⟩),
   (⟨0x05, 0, 0, 0, 0⟩, ⟨0xFF, 0, 0, 0, 0xFFFF⟩),
   (⟨0x06, 0, 0, 0, 0⟩, ⟨0xFF, 0x1F, 0, 0xFFFF, 0xFF00⟩),
   (⟨0x07, 0, 0, 0, 0⟩, ⟨0xFF, 0x1F, 0, 0xFFFF, 0xFFFF⟩),
   (⟨0x08, 0, 0, 0, 0⟩, ⟨0xFF, 0x1F, 0, 0xFFFF, 0⟩),
   (⟨0x09, 0, 0, 0, 0⟩, ⟨0xFF, 0x1F, 0, 0xFFFF, 0xFFFF⟩),
   (⟨0x0A, 0, 0, 0, 0⟩, ⟨0xFF, 0xFF, 0, 0, 0⟩),
   (⟨0x0B, 0, 0, 0, 0⟩, ⟨0xFF, 0x1F, 0, 0, 0xFFFF⟩),
   (⟨0x0C, 0, 0, 0, 0⟩, ⟨0xFF, 0x1F, 0xFFFF, 0, 0xFFFF⟩),
   (⟨0x0D, 0, 0, 0, 0⟩, ⟨0xFF, 0x1F, 0, 0, 0xFFFF⟩),
   (⟨0x0E, 0, 0, 0, 0⟩, ⟨0xFF, 0x0F, 0xFFFF, 0, 0xFFFF⟩),
   (⟨0x0F, 0, 0, 0, 0⟩, ⟨0xFF, 0x1F, 0xFFFF, 0xFFFF, 0xFF00⟩),
   (⟨0x10, 0, 0, 0, 0⟩, ⟨0xFF, 0x1F, 0xFFFF, 0xFFFF, 0xFFFF⟩),
   (⟨0x11, 0, 0, 0, 0⟩, ⟨0xFF, 0x1F, 0xFFFF, 0xFFFF, 0xFFFF⟩)]

theorem selPlain_iff_and (b : Byte) : selPlain b = true ↔ b &&& 0x1F = 0 := by revert b; decide

theorem selPeekable_iff_and (b : Byte) : selPeekable b = true ↔ b &&& 0x0F = 0 := by revert b; decide

theorem datHighZero_iff_and (d : Word) : datHighZero d = true ↔ d &&& 0xFF00 = 0 := by
  refine ⟨fun h => ?_, fun h => ?_⟩
  · rw [← (datHighZero_iff d).mp h]
    exact Laws.RowMatch.datOfByte_high _
  · have hx : d.extractLsb' 8 8 = (d &&& 0xFF00).extractLsb' 8 8 := by
      rw [BitVec.extractLsb'_and]
      exact (BitVec.and_allOnes).symm
    rw [datHighZero, hx, h]
    rfl

/-- A full mask changes nothing. -/
theorem byte_and_full (b : Byte) : b &&& 255#8 = b := BitVec.and_allOnes

theorem word_and_full (v : Word) : v &&& 65535#16 = v := BitVec.and_allOnes

/-- The fields of a word masked field by field. -/
def maskFields (o m : Operands) : Operands :=
  ⟨o.op &&& m.op, o.sel &&& m.sel, o.addr &&& m.addr, o.len &&& m.len, o.dat &&& m.dat⟩

/-- Every row fixes its operation code, one of 1 to 17 (R104). -/
theorem rowFields_op : ∀ r ∈ rowFields, r.2.op = 255#8 ∧ 1 ≤ r.1.op.toNat ∧ r.1.op.toNat ≤ 17 := by decide

/-- Fields decode exactly when, masked, they are the fixed bits of a row. -/
theorem decodeFields_isInstr_iff (o : Operands) :
    (∃ i, decodeFields o = .instr i) ↔ ∃ r ∈ rowFields, maskFields o r.2 = r.1 := by
  obtain ⟨op, sel, addr, len, dat⟩ := o
  unfold decodeFields
  split
  case h_18 =>
    refine iff_of_false (by simp) ?_
    rintro ⟨r, hr, hm⟩
    obtain ⟨hmask, hlo, hhi⟩ := rowFields_op r hr
    have hop : r.1.op = op := by rw [← hm, maskFields, hmask, byte_and_full]
    rw [hop] at hlo hhi
    simp only [imp_false] at *
    omega
  all_goals
    rename_i hop
    obtain ⟨_, rfl⟩ := BitVec.toNat_eq_nat.mp hop
    simp [ifZero_eq_instr, rowFields, maskFields, selPlain_iff_and, selPeekable_iff_and, datHighZero_iff_and, byte_and_full,
      word_and_full, and_assoc]

/-- Masking a word masks its fields, and its fixed bits are those of its fields. -/
theorem word_and_eq_iff (w : ReqWord) (f m : Operands) :
    w &&& joinWord m = joinWord f ↔ maskFields (splitWord w) m = f := by
  rw [← joinWord_splitWord w, joinWord_and, splitWord_joinWord, joinWord_eq_iff, splitWord_joinWord]
  rfl

/-- A word decodes exactly when, masked, it is the fixed bits of a row. -/
theorem decodeReq_isInstr_iff (w : ReqWord) :
    (∃ i, decodeReq w = .instr i) ↔
      ∃ r ∈ rowFields.map (fun r => (joinWord r.1, joinWord r.2)), w &&& r.2 = r.1 := by
  rw [decodeReq, decodeFields_isInstr_iff]
  simp only [List.mem_map, exists_exists_and_eq_and, word_and_eq_iff]

/-- An idle RBAT refuses a word that does not decode (R106). -/
theorem step_reserved {s : State} {w : ReqWord} (hq : s.seq = .idle) (hr : s.req = some w)
    (hw : ¬ ∃ i, decodeReq w = .instr i) : step s = .refused .reserved := by
  cases hd : decodeReq w with
  | instr i => exact absurd ⟨i, hd⟩ hw
  | reserved why => simp [step, rbatTurn, fetch, hq, hr, hd, turnOf]

/-- Settles O4: the rows of the table are `rowFields` joined to words. -/
theorem reservedMeansNoRowMatches : Obligations.ReservedMeansNoRowMatches := by
  unfold Obligations.ReservedMeansNoRowMatches
  intro rows w
  have hrows : rows = rowFields.map fun r => (joinWord r.1, joinWord r.2) := by decide
  have hw := decodeReq_isInstr_iff w
  rw [← hrows] at hw
  refine ⟨hw, fun hno s hq hr => step_reserved hq hr fun h => ?_⟩
  obtain ⟨r, hr, hm⟩ := hw.mp h
  exact hno r hr hm

/-! ## Frame headers (R108 to R114)

The same for a header, whose fields are an address and a control byte. A control byte whose width bits are clear is
`snCtl` of its three fields, so the decoder need be known on `snCtl` only. -/

/-- A header is the join of its address and control byte and of no others. -/
theorem joinHeader_eq_iff {a : Word} {ctl : Byte} {h : Header} :
    joinHeader a ctl = h ↔ a = h.extractLsb' 8 16 ∧ ctl = h.extractLsb' 0 8 := by
  refine ⟨fun e => ?_, fun ⟨ha, hc⟩ => ?_⟩
  · simp [← e]
  · rw [ha, hc, joinHeader_split]

theorem encodeFrame_eq_some {c : Cfg} {i : Instr} {h : Header} :
    encodeFrame c i = some h ↔ frameParts c i = some (h.extractLsb' 8 16, h.extractLsb' 0 8) := by
  cases hp : frameParts c i with
  | none => simp [encodeFrame, hp]
  | some p => simp [encodeFrame, hp, joinHeader_eq_iff, Prod.ext_iff]

/-- A frame has parts, a request has none. -/
theorem isRequest_iff_frameParts (c : Cfg) (i : Instr) : i.isRequest = true ↔ frameParts c i = none := by
  cases i <;> simp [Instr.isRequest, frameParts]

/-- What a control byte with clear width bits names, by its three fields (R110, R113). -/
theorem decodeFrameCtl_snCtl (c : Cfg) (a : Word) (sock : Sock) (b : Bank) (wr : Bool) :
    decodeFrameCtl c a (snCtl sock b wr) =
      if b = 0#2 then if sock = 0#3 then .instr (if wr then .fWrGen a else .fRdGen a) else .reserved .frameKind
      else if b = bankSreg then .instr (if wr then .fWrSreg a sock else .fRdSreg a sock)
      else if b = c.bankTx ∧ wr = true then .instr (.fWrTxb a sock)
      else if b = c.bankRx ∧ wr = false then .instr (.fRdRxb a sock)
      else .reserved .frameKind := by
  by_cases hb : b = 0#2
  · by_cases hs : sock = 0#3 <;> simp [decodeFrameCtl, badCtlBank, hb, hs]
  · simp [decodeFrameCtl, badCtlBank, hb]

/-- The buffer banks are not the register bank (R6). -/
theorem bufferBanks_ne_sreg {c : Cfg} (hc : c.Ok) : c.bankTx ≠ bankSreg ∧ c.bankRx ≠ bankSreg := by
  obtain ⟨_, _, _, _, ht, hr, _⟩ := hc
  constructor
  · rcases ht with h | h <;> rw [h] <;> decide
  · rcases hr with h | h <;> rw [h] <;> decide

/-- The parts of a frame decode to it. -/
theorem decodeFrameCtl_frameParts {c : Cfg} (hc : c.Ok) {i : Instr} {a : Word} {ctl : Byte}
    (h : frameParts c i = some (a, ctl)) : decodeFrameCtl c a ctl = .instr i := by
  obtain ⟨ht', hr'⟩ := bufferBanks_ne_sreg hc
  have ht : c.bankTx ≠ 0#2 := bankTx_ne_zero hc
  have hr : c.bankRx ≠ 0#2 := bankRx_ne_zero hc
  have hs : bankSreg ≠ 0#2 := by decide
  cases i with
  | fRdGen | fWrGen | fRdSreg | fWrSreg | fWrTxb | fRdRxb =>
    obtain ⟨rfl, rfl⟩ := Prod.mk.inj (Option.some.inj h)
    simp [genCtl, rdCtl, wrCtl, decodeFrameCtl_snCtl, hs, ht, ht', hr, hr']
  | _ => contradiction

/-- A control byte that decodes to a frame is the frame's. -/
theorem frameParts_of_decodeFrameCtl {c : Cfg} {i : Instr} {a : Word} {ctl : Byte}
    (h : decodeFrameCtl c a ctl = .instr i) : frameParts c i = some (a, ctl) := by
  cases hw : badCtlWidth ctl with
  | true => simp [decodeFrameCtl, hw] at h
  | false =>
    rw [← snCtl_fields ctl hw] at h ⊢
    generalize ctlSockOf ctl = sock, ctlBankOf ctl = b, ctlWrite ctl = wr at h ⊢
    rw [decodeFrameCtl_snCtl] at h
    split_ifs at h <;> obtain rfl := Decoded.instr.inj h
    all_goals simp_all [frameParts, genCtl, rdCtl, wrCtl]

/-- Settles O3: a header is an address and a control byte, and the parts that decode to a frame are the frame's. -/
theorem frameHeaderHasOneMeaning : Obligations.FrameHeaderHasOneMeaning := by
  intro c h i hc
  rw [encodeFrame_eq_some, decodeFrame]
  exact ⟨frameParts_of_decodeFrameCtl, decodeFrameCtl_frameParts hc⟩

/-! ## The table's decoder (R107, R113) -/

theorem decodeTableWord_request (w : ReqWord) : decodeTableWord 64 w.toNat = (decodeReq w).toOption := by
  simp [decodeTableWord, Nat.not_le.mpr w.isLt]

theorem decodeTableWord_frame (h : Header) : decodeTableWord 24 h.toNat = (decodeFrame Cfg.ref h).toOption := by
  simp [decodeTableWord, Nat.not_le.mpr h.isLt]

/-- REFCFG meets its constraints (R6). -/
theorem cfgRef_ok : Cfg.ref.Ok := resetMeetsTheInvariant.cfgOk

/-- Settles O1: a frame has a header and every other instruction is a request, each the only one with its word. -/
theorem decodeOfEncodeIsTheInstruction : Obligations.DecodeOfEncodeIsTheInstruction := by
  intro i
  cases he : encodeFrame Cfg.ref i with
  | some h =>
    have hd := (frameHeaderHasOneMeaning Cfg.ref h i cfgRef_ok).mpr he
    simp [encode, he, decodeTableWord_frame, hd, Decoded.toOption]
  | none =>
    have hi := (isRequest_iff_frameParts Cfg.ref i).mpr (by simpa [encodeFrame] using he)
    simp [encode, he, decodeTableWord_request, decodeReq_encodeReq hi, Decoded.toOption]

/-- Settles O5, word by word. -/
theorem wordsOfTheSpecDecode : Obligations.WordsOfTheSpecDecode := by
  unfold Obligations.WordsOfTheSpecDecode
  decide

/-- Settles O6, by trying every socket, bank and direction. -/
theorem controlByteIsShiftedFields : Obligations.ControlByteIsShiftedFields := by
  unfold Obligations.ControlByteIsShiftedFields
  decide

/-! ## Turns (R100, R108) -/

/-- Settles O9: the turn is `fetch` of a due frame whose header decodes; the step adds the host's turn. -/
theorem stepRunsTheDueFrame : Obligations.StepRunsTheDueFrame := by
  intro s h d n i hq hi
  have ht : rbatTurn s = exec i s := by simp [rbatTurn, fetch, hq, hi, turnOf]
  cases he : exec i s <;> simp [step, ht, he]

/-- Settles O11: the word placed in REQ is the request's own, and decodes to it. -/
theorem placedRequestRunsNext : Obligations.PlacedRequestRunsNext := by
  intro s i hi
  simp [State.withFetchWord, State.placeWord, State.placeReq, rbatTurn, fetch, decodeReq_encodeReq hi, turnOf, State.takeReq]

/-! ## Due frames (R109, R113) -/

theorem phase_of_xfer {s : State} {h : Header} {d : List Byte} {n : Nat} (hq : s.seq = .xfer h d n) :
    s.phaseData = d ∧ s.phaseLen = n := by
  simp [State.phaseData, State.phaseLen, hq]

section

variable {a : Word} {ctl : Byte} {s : State} (hoe : s.csOe = true) (hc : s.csn = true)

include hoe hc

/-- A write frame that passes its tests is one write transaction (R146). -/
theorem frameWrite_next (hd : 1 ≤ s.phaseData.length) (ha : a.toNat + s.phaseData.length ≤ 65536) :
    frameWrite a ctl s = .next { s.did [.w a ctl s.phaseData] with seq := .idle } := by
  refine onBus_next.mpr ⟨hoe, hc, ?_, by rw [busWrite_high hc]; rfl⟩
  simp [runTooHigh, List.length_pos_iff.mp hd, ha]

/-- A read frame that passes its tests is one read transaction (R147). -/
theorem frameRead_next (hn : 1 ≤ s.phaseLen) (ha : a.toNat + s.phaseLen ≤ 65536) :
    frameRead a ctl s = .next { (s.drew s.phaseLen).did [.r a ctl (s.nextBytes s.phaseLen)] with seq := .idle } := by
  refine onBus_next.mpr ⟨hoe, hc, ?_, by rw [busRead_high hc]; rfl⟩
  simp [runTooHigh, Nat.one_le_iff_ne_zero.mp hn, ha]

end

/-- The control byte of a socket's register bank in numbers (R171). -/
theorem sregCtl_eq (sock : Sock) :
    wrCtl sock = (sock.zeroExtend 8 <<< 5) + 0x0C ∧ rdCtl sock = (sock.zeroExtend 8 <<< 5) + 0x08 := by
  revert sock
  decide

/-- Settles O58: each write frame is `frameWrite` with the control byte of its kind. -/
theorem writeFramesDoOneTransaction : Obligations.WriteFramesDoOneTransaction := by
  intro a sock h d n s hq hoe hc hd ha
  obtain ⟨rfl, _⟩ := phase_of_xfer hq
  rw [← (sregCtl_eq sock).1]
  exact ⟨frameWrite_next hoe hc hd ha, frameWrite_next hoe hc hd ha, frameWrite_next hoe hc hd ha⟩

/-- Settles O59: each read frame is `frameRead` with the control byte of its kind. -/
theorem readFramesDoOneTransaction : Obligations.ReadFramesDoOneTransaction := by
  intro a sock h d n s hq hoe hc hn ha
  obtain ⟨_, rfl⟩ := phase_of_xfer hq
  rw [← (sregCtl_eq sock).2]
  exact ⟨frameRead_next hoe hc hn ha, frameRead_next hoe hc hn ha, frameRead_next hoe hc hn ha⟩

/-! ## RBAT's own frames (R113, R118, R250) -/

/-- A transaction with the header of one of the six frames, whose direction bit says whether it writes. -/
def Txn.IsFrame (c : Cfg) (x : Txn) : Prop :=
  (∃ f, frameParts c f = some (x.addr, x.ctl)) ∧ ctlWrite x.ctl = x.isWrite

/-- The header of a frame decodes to one. -/
theorem Txn.IsFrame.decodes {c : Cfg} (hc : c.Ok) {x : Txn} (h : x.IsFrame c) :
    ∃ f : Instr, decodeFrame c (joinHeader x.addr x.ctl) = .instr f ∧ f.isRequest = false ∧ ctlWrite x.ctl = x.isWrite := by
  obtain ⟨⟨f, hf⟩, hw⟩ := h
  refine ⟨f, (frameHeaderHasOneMeaning c _ f hc).mpr (by simp [encodeFrame, hf]), ?_, hw⟩
  simp [← Bool.not_eq_true, isRequest_iff_frameParts c, hf]

theorem sregRead_isFrame (c : Cfg) (a : Word) (sock : Sock) (d : List Byte) : (Txn.r a (rdCtl sock) d).IsFrame c :=
  ⟨⟨.fRdSreg a sock, rfl⟩, ctlWrite_snCtl _ _ _⟩

theorem sregWrite_isFrame (c : Cfg) (a : Word) (sock : Sock) (d : List Byte) : (Txn.w a (wrCtl sock) d).IsFrame c :=
  ⟨⟨.fWrSreg a sock, rfl⟩, ctlWrite_snCtl _ _ _⟩

/-- A read with the control byte of a receive buffer. -/
theorem rxRead_isFrame {c : Cfg} {sock : Sock} {x : Txn} (h : x.ctl = snCtl sock c.bankRx false ∧ x.isWrite = false) :
    x.IsFrame c :=
  ⟨⟨.fRdRxb x.addr sock, by rw [h.1]; rfl⟩, by rw [h.1, h.2, ctlWrite_snCtl]⟩

/-- A write with the control byte of a transmit buffer. -/
theorem txWrite_isFrame {c : Cfg} {sock : Sock} {x : Txn} (h : x.ctl = snCtl sock c.bankTx true ∧ x.isWrite = true) :
    x.IsFrame c :=
  ⟨⟨.fWrTxb x.addr sock, by rw [h.1]; rfl⟩, by rw [h.1, h.2, ctlWrite_snCtl]⟩

theorem ringReads_areFrames (c : Cfg) (sock : Sock) (p len : Word) (bs : List Byte) :
    ∀ x ∈ ringReads c sock p len bs, x.IsFrame c := fun _ hx => rxRead_isFrame (mem_readTxns hx)

theorem ringWrites_areFrames (c : Cfg) (sock : Sock) (p len : Word) (bs : List Byte) :
    ∀ x ∈ ringWrites c sock p len bs, x.IsFrame c := fun _ hx => txWrite_isFrame (mem_writeTxns hx)

/-- Every transaction of an instruction other than the four raw ones is a frame. -/
theorem txnsOf_areFrames {i : Instr} (hi : i.rawCtl = none) (s : State) : ∀ x ∈ txnsOf i s, x.IsFrame s.cfg := by
  cases i with simp only [txnsOf, List.forall_mem_append, List.forall_mem_cons, List.not_mem_nil, false_implies, implies_true,
    and_true]
  | wr1 | wrn | rd1 | rdn => contradiction
  | snwr1 | snwr2 | fWrSreg => exact sregWrite_isFrame _ _ _ _
  | snrd1 | snrd2 | fRdSreg => exact sregRead_isFrame _ _ _ _
  | rddata => exact ringReads_areFrames _ _ _ _ _
  | send => exact ⟨⟨sregRead_isFrame _ _ _ _, ringWrites_areFrames _ _ _ _ _⟩, sregWrite_isFrame _ _ _ _⟩
  | sendofs => exact ringWrites_areFrames _ _ _ _ _
  | recv sock peek len =>
    refine ⟨⟨sregRead_isFrame _ _ _ _, ringReads_areFrames _ _ _ _ _⟩, ?_⟩
    cases peek with
    | true => simp
    | false => simpa using sregWrite_isFrame _ _ _ _
  | execCmd => exact ⟨sregWrite_isFrame _ _ _ _, sregRead_isFrame _ _ _ _⟩
  | txfree | rxsize => exact ⟨sregRead_isFrame _ _ _ _, sregRead_isFrame _ _ _ _⟩
  | fRdGen => exact ⟨⟨.fRdGen _, rfl⟩, ctlWrite_snCtl _ _ _⟩
  | fWrGen => exact ⟨⟨.fWrGen _, rfl⟩, ctlWrite_snCtl _ _ _⟩
  | fWrTxb => exact txWrite_isFrame ⟨rfl, rfl⟩
  | fRdRxb => exact rxRead_isFrame ⟨rfl, rfl⟩

/-- Settles O20: what an instruction adds to TRACE is `txnsOf`, and a turn inside a loop adds one register read. -/
theorem ownFramesAreOfTheSixKinds : Obligations.OwnFramesAreOfTheSixKinds := by
  refine ⟨fun i s t ts hok hi h htr x hx => ?_, fun s t ts hok hl h htr x hx => ?_⟩
  · rcases exec_next_eq h with rfl | rfl
    · simp [List.self_eq_append_right.mp htr] at hx
    · rw [outcomeOf_trace, List.append_cancel_left_eq] at htr
      exact (txnsOf_areFrames hi s x (htr ▸ hx)).decodes hok
  · obtain ⟨off, hread⟩ := inLoop_trace hl h
    rw [hread, List.append_cancel_left_eq] at htr
    obtain rfl := List.mem_singleton.mp (htr ▸ hx)
    exact (sregRead_isFrame s.cfg _ _ _).decodes hok

end Sys2Proof.Machine

/-! # The bus transaction primitive (40_bus_primitive) -/

namespace Sys2Proof.Machine

/-! ## Faults (R145, R260) -/

/-- An instruction faults only where chip-select is low. -/
theorem exec_fault {i : Instr} {s : State} {f : Fault} (h : exec i s = .fault f) : s.csn = false := by
  rw [exec_eq] at h
  split_ifs at h
  · exact onBus_fault h
  · rw [guarded] at h
    split at h <;> contradiction

/-- RBAT's turn faults only where chip-select is low. -/
theorem rbatTurn_fault {s : State} {f : Fault} (h : rbatTurn s = .fault f) : s.csn = false := by
  cases hq : s.seq with
  | execPoll => exact onBus_fault (rbatTurn_execPoll hq ▸ h)
  | txfreeRead => exact onBus_fault (rbatTurn_txfreeRead hq ▸ h)
  | rxsizeRead => exact onBus_fault (rbatTurn_rxsizeRead hq ▸ h)
  | xfer hd d n =>
    cases hi : decodeFrame s.cfg hd with
    | instr i => exact exec_fault (i := i) (by simpa [rbatTurn, fetch, hq, hi, turnOf] using h)
    | reserved r => simp [rbatTurn, fetch, hq, hi, turnOf] at h
  | idle =>
    cases hr : s.req with
    | none => simp [rbatTurn, fetch, hq, hr] at h
    | some w =>
      cases hi : decodeReq w with
      | instr i => exact exec_fault (i := i) (s := s.takeReq) (by simpa [rbatTurn, fetch, hq, hr, hi, turnOf] using h)
      | reserved r => simp [rbatTurn, fetch, hq, hr, hi, turnOf] at h

/-- The host's turn never faults. -/
theorem hostTurn_ne_fault (s : State) (f : Fault) : hostTurn s ≠ .fault f := by
  unfold hostTurn
  split
  · simp
  · rename_i a rest _
    split
    · simp
    · cases a with
      | reset => simp only [State.hostAct]; split <;> simp
      | _ => simp [State.hostAct]

/-- Settles O16: RBAT's turn faults only where chip-select is low, which the invariant excludes, and the host's never does. -/
theorem noStepFaults : Obligations.NoStepFaults := by
  intro s f hs h
  rw [step] at h
  cases hr : rbatTurn s with
  | next t => exact hostTurn_ne_fault t f (by simpa [hr] using h)
  | fault g => simpa [hs.csnHigh] using rbatTurn_fault hr
  | refused r => simp [hr] at h

/-! ## Frames on the wires (R108, R143, R144) -/

/-- The header bytes of a frame in numbers (R62, R114). -/
theorem headerBytes_eq (a : Word) (c : Byte) :
    headerBytes a c = [BitVec.ofNat 8 (a.toNat / 256), BitVec.ofNat 8 (a.toNat % 256), c] := by
  have hhi : a.extractLsb' 8 8 = BitVec.ofNat 8 (a.toNat / 256) := by
    apply BitVec.eq_of_toNat_eq
    simp [Nat.shiftRight_eq_div_pow]
  have hlo : a.extractLsb' 0 8 = BitVec.ofNat 8 (a.toNat % 256) := by
    apply BitVec.eq_of_toNat_eq
    simp
  rw [headerBytes, hhi, hlo]

/-- A frame byte by byte: chip-select falls, header, data phase, chip-select rises. -/
theorem Txn.onWire_eq (dummy : Byte) (x : Txn) :
    x.onWire dummy =
      [Wire.fall, .out (BitVec.ofNat 8 (x.addr.toNat / 256)), .out (BitVec.ofNat 8 (x.addr.toNat % 256)), .out x.ctl] ++
        (if x.isWrite then x.data.map Wire.out else List.replicate x.data.length (.out dummy)) ++ [.rise] := by
  cases x <;> simp [Txn.onWire, headerBytes_eq]

/-- From `s` to `t` these transactions were done: on TRACE, on the wires and in the chip space. -/
structure State.Does (s : State) (ts : List Txn) (t : State) : Prop where
  trace : t.trace = s.trace ++ ts
  wire : t.wire = s.wire ++ wireOf s.cfg.dummy ts
  chipMem : t.chipMem = memAfter ts s.chipMem

/-- A state whose records and DUMMY are those of `s` does from `s` what is done from it. -/
theorem State.Does.of_did {s u : State} (hcfg : u.cfg = s.cfg) (htr : u.trace = s.trace) (hw : u.wire = s.wire)
    (hm : u.chipMem = s.chipMem) (ts : List Txn) : s.Does ts (u.did ts) where
  trace := by rw [← htr]; rfl
  wire := by rw [← hw, ← hcfg]; rfl
  chipMem := by rw [← hm]; rfl

/-- Where nothing happens no transaction is done. -/
theorem State.Does.refl (s : State) : s.Does [] s where
  trace := by simp
  wire := by simp
  chipMem := rfl

/-- An instruction that is taken does transactions. -/
theorem exec_does {i : Instr} {s t : State} (h : exec i s = .next t) : ∃ ts, s.Does ts t := by
  rcases exec_next_eq h with rfl | rfl
  · exact ⟨[], .refl _⟩
  · exact ⟨_, .of_did (by simp) (by simp) (by simp) (by simp) _⟩

/-- Every turn of RBAT does transactions; taking the request does none. -/
theorem rbatTurn_does {s t : State} (h : rbatTurn s = .next t) : ∃ ts, s.Does ts t := by
  rcases rbatTurn_next h with ⟨_, _, rfl⟩ | ⟨w, i, _, _, _, he⟩ | ⟨hd, d, n, i, _, _, he⟩ | hl
  · exact ⟨[], .refl _⟩
  · obtain ⟨ts, htr, hw, hm⟩ := exec_does he
    exact ⟨ts, htr, hw, hm⟩
  · exact exec_does he
  · obtain ⟨_, _, off, n, u, _, rfl, ⟨_, rfl⟩ | ⟨_, rfl⟩⟩ := inLoop_next hl h <;>
      exact ⟨_, .of_did (by simp) (by simp) (by simp) (by simp) _⟩

/-- Settles O19: every turn does the transactions it adds to TRACE, each as one whole frame. -/
theorem turnPutsWholeFramesOnTheWires : Obligations.TurnPutsWholeFramesOnTheWires := by
  intro s t h
  obtain ⟨ts, htr, hw, hm⟩ := rbatTurn_does h
  exact ⟨ts, htr, hw.trans (congrArg _ (List.flatMap_congr fun x _ => x.onWire_eq _)), hm⟩

/-! ## BusWrite and BusRead (R146, R147) -/

/-- Settles O29: BusWrite is one write transaction, which delivers its run. -/
theorem busWriteSendsOneFrame : Obligations.BusWriteSendsOneFrame := by
  intro addr ctl d s _ _ _ hc
  rw [← locOf_eq]
  refine ⟨Memory.writeRun (locOf ctl addr.toNat) d s.chipMem, ?_, fun i hi => ?_, fun a ha => ?_⟩
  · rw [busWrite_high hc]
    simp [State.did, wireOf, Txn.onWire_eq, Txn.store]
  · exact Memory.read_writeRun_inside d _ i _ hi
  · exact Memory.read_writeRun_outside d _ ha

/-- Settles O30: BusRead is one read transaction of the next bytes. -/
theorem busReadReceivesOneFrame : Obligations.BusReadReceivesOneFrame := by
  intro addr ctl n s _ _ _ hc
  rw [busRead_high hc]
  refine ⟨State.nextBytes_length s n, rfl, ?_⟩
  simp [State.did, wireOf, Txn.onWire_eq, Txn.store]

/-! ## INIT and the raw operations (R142, R148 to R152) -/

/-- Every instruction of the bus that starts before INIT is refused with NotInit (R292). -/
theorem exec_notInit {i : Instr} {s : State} (hs : StartsIn i s) (hu : i.usesBus = true) (hoe : s.csOe = false) :
    exec i s = .refused .notInit := by
  have hb : (i.isRequest && s.busy) = false := by
    rw [Bool.and_eq_false_imp]
    exact fun hi => State.busy_eq_false.mpr (hs hi)
  simp [exec_eq, hb, hu, onBus, firstRefusal, hoe]

/-- INIT where `BUSY = 0` (R142). -/
theorem exec_init {s : State} (hq : s.seq = .idle) :
    exec .init s = .next { s with csn := true, csOe := true, opnd := ⟨0x01, 0, 0, 0, 0⟩ } := by
  refine exec_next.mpr (.inr ⟨fun _ => hq, nofun, nofun, ?_⟩)
  simp [outcomeOf, effectOf, txnsOf, drawsOf, updateOf, operandsOf, Instr.isRequest, fieldsOf, State.sample]

/-- Settles O31: INIT's outcome, the refusal of the bus before it, and STATUS of the two states. -/
theorem initDrivesChipSelectHigh : Obligations.InitDrivesChipSelectHigh := by
  refine ⟨fun s => exec_init, fun i s hu hoe hs => exec_notInit hs hu hoe, rfl, fun t h => ?_⟩
  obtain rfl := Host.Outcome.next.inj ((exec_init rfl).symm.trans h)
  rfl

/-- The sampled operands are no input of what an instruction does. -/
theorem effectOf_sample (i : Instr) (s : State) (o : Operands) : effectOf i (s.sample o) = (effectOf i s).sample o := by
  cases i <;> rfl

/-- A ready state takes a request whose tests it passes, and answers its effect with the operands sampled. -/
theorem exec_ready {i : Instr} {s t : State} (hs : s.Ready) (hi : i.isRequest = true) (ht : ∀ c ∈ testsOf i s, c.1 = false)
    (he : { effectOf i s with opnd := fieldsOf i } = t) : exec i s = .next t := by
  refine exec_next.mpr (.inr ⟨fun _ => hs.1, fun _ => hs.2, ht, ?_⟩)
  rw [outcomeOf, effectOf_sample, operandsOf, if_pos hi, ← he]
  rfl

/-- The reason by the bits of a control byte is the first one its tests give (R152, R264). -/
theorem firstRefusal_ctlChecks (wr : Bool) (ctl : Byte) : firstRefusal (ctlChecks wr ctl) = ctlReason wr ctl := by
  revert wr ctl
  decide

/-- An accepted control byte passes its tests. -/
theorem ctlChecks_of_ok {wr : Bool} {ctl : Byte} (h : RawCtlOk wr ctl) : ∀ c ∈ ctlChecks wr ctl, c.1 = false :=
  firstRefusal_none.mp ((firstRefusal_ctlChecks wr ctl).trans h)

/-- A run inside the address space passes its tests. -/
theorem runChecks_of_fits {addr len : Word} (hl : 1 ≤ len.toNat) (ha : addr.toNat + len.toNat ≤ 65536) :
    ∀ c ∈ runChecks addr len, c.1 = false := by
  have hz : len ≠ 0#16 := by
    rintro rfl
    contradiction
  simp [runChecks, lenIsZero, runTooHigh, hz, ha]

/-- LEN bytes in `DIN` pass their test. -/
theorem dinChecks_of_le {s : State} {len : Word} (h : len.toNat ≤ s.din.length) : ∀ c ∈ dinChecks s len, c.1 = false := by
  simpa [dinChecks] using h

/-- A byte zero-extended to a word. -/
theorem zeroExtend_byte (b : Byte) : b.zeroExtend 16 = 0#8 ++ b := BitVec.setWidth_eq_append (by decide)

/-- Settles O32: WR1 writes its byte and updates nothing. -/
theorem wr1WritesOneByte : Obligations.Wr1WritesOneByte := by
  intro ctl addr dat s hs hctl
  refine exec_ready hs rfl (ctlChecks_of_ok hctl) ?_
  rw [effectOf, drawsOf, State.drew_zero]
  rfl

/-- Settles O33: WRN writes the bytes it takes from `DIN`. -/
theorem wrnWritesARun : Obligations.WrnWritesARun := by
  intro ctl addr len s hs hctl hl ha hd
  have hrun := List.forall_mem_append.mpr ⟨ctlChecks_of_ok hctl, runChecks_of_fits hl ha⟩
  have ht := List.forall_mem_append.mpr ⟨hrun, dinChecks_of_le hd⟩
  refine exec_ready hs rfl ht ?_
  rw [effectOf, drawsOf, State.drew_zero]
  rfl

/-- Settles O34: RD1 reads one byte, the byte of RES. -/
theorem rd1ReadsOneByte : Obligations.Rd1ReadsOneByte := by
  intro ctl addr s hs hctl
  obtain ⟨b, hb⟩ := List.length_eq_one_iff.mp (s.nextBytes_length 1)
  refine ⟨b, hb, exec_ready hs rfl (ctlChecks_of_ok hctl) ?_⟩
  rw [effectOf, txnsOf, updateOf, hb, ← zeroExtend_byte]
  rfl

/-- Settles O35: RDN reads the bytes it appends to `DOUT`. -/
theorem rdnReadsARun : Obligations.RdnReadsARun := by
  intro ctl addr len s hs hctl hl ha
  have ht := List.forall_mem_append.mpr ⟨ctlChecks_of_ok hctl, runChecks_of_fits hl ha⟩
  exact exec_ready hs rfl ht rfl

end Sys2Proof.Machine

/-! # The socket register accessor (41_socket_accessor) -/

namespace Sys2Proof.Machine

/-- The data bytes of a 16-bit value in numbers, high byte first (R115): those of an address in a header. -/
theorem bytesOfWord_eq (v : Word) :
    bytesOfWord v = [BitVec.ofNat 8 (v.toNat / 256), BitVec.ofNat 8 (v.toNat % 256)] :=
  congrArg (List.take 2) (headerBytes_eq v 0)

/-- A register access inside the address space passes its test (R176). -/
theorem regChecks_of_fits {c : Cfg} {sock : Sock} {off : Word} {n : Nat}
    (h : (c.sregBase sock).toNat + off.toNat + n ≤ 65536) : ∀ x ∈ regChecks c sock off n, x.1 = false := by
  simpa [regChecks, runTooHigh] using h

/-- Settles O36: SNWR1 and SNWR2 write one byte, or the two bytes of a word, and update nothing. -/
theorem socketRegisterWrites : Obligations.SocketRegisterWrites := by
  intro sock off s hs
  refine ⟨fun dat ha => exec_ready hs rfl (regChecks_of_fits ha) ?_,
    fun dat ha => exec_ready hs rfl (regChecks_of_fits ha) ?_⟩
  · rw [effectOf, drawsOf, State.drew_zero, ← (sregCtl_eq sock).1]
    rfl
  · rw [effectOf, drawsOf, State.drew_zero, ← (sregCtl_eq sock).1, ← bytesOfWord_eq]
    rfl

/-- Settles O37: SNRD1 and SNRD2 read one byte, or the two bytes of a word, which go to RES. -/
theorem socketRegisterReads : Obligations.SocketRegisterReads := by
  intro sock off s hs
  obtain ⟨b, hb⟩ := List.length_eq_one_iff.mp (s.nextBytes_length 1)
  obtain ⟨h, l, hhl⟩ := List.length_eq_two.mp (s.nextBytes_length 2)
  refine ⟨fun ha => ⟨b, hb, exec_ready hs rfl (regChecks_of_fits ha) ?_⟩,
    fun ha => ⟨h, l, hhl, exec_ready hs rfl (regChecks_of_fits ha) ?_⟩⟩
  · rw [effectOf, txnsOf, updateOf, hb, ← (sregCtl_eq sock).2, ← zeroExtend_byte]
    rfl
  · rw [effectOf, txnsOf, updateOf, State.nextWord, hhl, ← (sregCtl_eq sock).2]
    rfl

end Sys2Proof.Machine

/-! # The ring translator (42_ring_translator) -/

namespace Sys2Proof.Machine

/-! ## The two forms of a translation (R192) -/

/-- A transfer that ends in the buffer is one piece. -/
theorem xlate_of_le {p n S : Nat} (h : p % S + n ≤ S) (B : Nat) : xlate p n S B = [(B + p % S, n)] :=
  if_neg (Nat.not_lt.mpr h)

/-- A transfer past the end of the buffer is a tail piece and a head piece. -/
theorem xlate_of_lt {p n S : Nat} (hS : 0 < S) (h : S < p % S + n) (B : Nat) :
    xlate p n S B = [(B + p % S, S - p % S), (B, p % S + n - S)] := by
  have ho := Nat.mod_lt p hS
  have hn : n - (S - p % S) = p % S + n - S := by omega
  rw [← hn]
  exact if_pos h

/-! ## Range (R194) -/

/-- Settles O38: the pieces lie within the buffer. -/
theorem translationStaysInTheBuffer : Obligations.TranslationStaysInTheBuffer := by
  intro p n S B hS hn q hq
  obtain ⟨hlo, hhi, _⟩ := xlate_within hS hn B q hq
  exact ⟨hlo, hhi⟩

/-! ## Exactness (R195) -/

@[simp] theorem pieceAddrs_nil : pieceAddrs [] = [] := rfl

@[simp] theorem pieceAddrs_cons (q : Nat × Nat) (ps : List (Nat × Nat)) :
    pieceAddrs (q :: ps) = List.range' q.1 q.2 ++ pieceAddrs ps := rfl

/-- Before the end of the buffer the bytes go up from the pointer's place. -/
theorem ringAddr_of_lt {p S i : Nat} (h : p % S + i < S) (B : Nat) : ringAddr p S B i = B + p % S + i := by
  rw [ringAddr, ← Nat.mod_add_mod, Nat.mod_eq_of_lt h, Nat.add_assoc]

/-- At the end of the buffer they start again at the base. -/
theorem ringAddr_wrapped {p S i : Nat} (hp : p % S ≤ S) (hi : i < S) (B : Nat) :
    ringAddr p S B (S - p % S + i) = B + i := by
  have hsum : p % S + (S - p % S + i) = S + i := by omega
  rw [ringAddr, ← Nat.mod_add_mod, hsum, Nat.add_mod_left, Nat.mod_eq_of_lt hi]

/-- A piece that starts at the pointer's place and ends in the buffer holds the first bytes. -/
theorem range'_tail {p k S : Nat} (h : p % S + k ≤ S) (B : Nat) :
    List.range' (B + p % S) k = (List.range k).map (ringAddr p S B) := by
  rw [List.range'_eq_map_range]
  refine List.map_congr_left fun i hi => (ringAddr_of_lt ?_ B).symm
  have := List.mem_range.mp hi
  omega

/-- A piece that starts at the base holds the bytes after the end of the buffer. -/
theorem range'_head {p k S : Nat} (hp : p % S ≤ S) (hk : k ≤ S) (B : Nat) :
    List.range' B k = (List.range k).map fun i => ringAddr p S B (S - p % S + i) := by
  rw [List.range'_eq_map_range]
  exact List.map_congr_left fun i hi => (ringAddr_wrapped hp ((List.mem_range.mp hi).trans_le hk) B).symm

/-- The addresses of the pieces are those of the bytes, in order: the second piece starts where the first wraps. -/
theorem pieceAddrs_xlate {p n S : Nat} (hS : 0 < S) (hn : n ≤ S) (B : Nat) :
    pieceAddrs (xlate p n S B) = (List.range n).map (ringAddr p S B) := by
  have ho := Nat.mod_lt p hS
  rcases Nat.lt_or_ge S (p % S + n) with h | h
  · have hsplit : n = (S - p % S) + (p % S + n - S) := by omega
    conv_rhs => rw [hsplit, List.range_add, List.map_append, List.map_map]
    rw [xlate_of_lt hS h, pieceAddrs_cons, pieceAddrs_cons, pieceAddrs_nil, List.append_nil, range'_tail (by omega),
      range'_head ho.le (by omega)]
    rfl
  · rw [xlate_of_le h, pieceAddrs_cons, pieceAddrs_nil, List.append_nil, range'_tail h]

/-- Settles O39: the addresses and the lengths of both forms, then the pieces of each. -/
theorem translationIsExact : Obligations.TranslationIsExact := by
  intro p n S B hS hn
  have ho := Nat.mod_lt p hS
  refine ⟨pieceAddrs_xlate hS hn B, totalLen_xlate hS, ?_, fun h => ?_, fun hpos q hq => ?_, fun h0 => ?_⟩
  · split_ifs with h
    · rw [xlate_of_lt hS h, List.length_cons, List.length_singleton]
    · rw [xlate_of_le (by omega), List.length_singleton]
  · refine ⟨_, _, xlate_of_lt hS h B, rfl, ?_, rfl, ?_, ?_, ?_⟩ <;>
      simp only <;> omega
  · obtain ⟨_, _, hne⟩ := xlate_within hS hn B q hq
    exact hne hpos
  · subst h0
    exact xlate_of_le (by omega) B

/-! ## Continuation (R196) -/

/-- A translation depends on the pointer only through its place in the buffer. -/
theorem xlate_congr {p q S : Nat} (h : p % S = q % S) (n B : Nat) : xlate p n S B = xlate q n S B := by
  rw [xlate, xlate, h]

/-- So does the address of a byte. -/
theorem ringAddr_congr {p q S : Nat} (h : p % S = q % S) (B i : Nat) : ringAddr p S B i = ringAddr q S B i := by
  rw [ringAddr, ringAddr, ← Nat.mod_add_mod, h, Nat.mod_add_mod]

/-- Settles O40: 16-bit wraparound keeps a pointer's place in the buffer. -/
theorem advancedPointerContinuesTheTransfer : Obligations.AdvancedPointerContinuesTheTransfer := by
  intro p n m S B _ hdvd
  have hplace : (p + n) % 65536 % S = (p + n) % S := Nat.mod_mod_of_dvd _ hdvd
  refine ⟨xlate_congr (Nat.mod_mod p S).symm n B, ?_, xlate_congr hplace m B, fun i => ?_⟩
  · rw [hplace, Nat.mod_add_mod]
  · rw [ringAddr_congr hplace, ringAddr, ringAddr, Nat.add_assoc]

/-! ## No divider (R198) -/

/-- The low 11 bits of a pointer are its place in a buffer of 2048. -/
theorem toNat_low11 (p : Word) : (p.extractLsb' 0 11).toNat = p.toNat % 2048 := by
  rw [BitVec.extractLsb'_toNat, Nat.shiftRight_zero]

/-- Settles O41: the low 11 bits decide the form of the translation. -/
theorem translationNeedsNoDivider : Obligations.TranslationNeedsNoDivider := by
  intro p n B
  rw [toNat_low11]
  split_ifs with h
  · exact xlate_of_lt (by decide) h B
  · exact xlate_of_le (Nat.not_lt.mp h) B

/-! ## XLATE (R197) -/

/-- The segment registers in words: the base and the pointer's place in the buffer decide them. -/
theorem segsOf_xlate (p n base : Word) :
    segsOf (xlate p.toNat n.toNat 2048 base.toNat) base =
      if p.toNat % 2048 + n.toNat > 2048 then
        ⟨base + BitVec.ofNat 16 (p.toNat % 2048), BitVec.ofNat 16 (2048 - p.toNat % 2048), base,
          BitVec.ofNat 16 (p.toNat % 2048 + n.toNat - 2048)⟩
      else ⟨base + BitVec.ofNat 16 (p.toNat % 2048), n, base, 0⟩ := by
  split_ifs with h
  · rw [xlate_of_lt (by decide) h]
    simp [segsOf, firstPiece, secondLen, BitVec.ofNat_add]
  · rw [xlate_of_le (Nat.not_lt.mp h)]
    simp [segsOf, firstPiece, secondLen, BitVec.ofNat_add]

/-- A translation at the base of a buffer goes to the segment registers as it stands. -/
theorem setSegs_eq (segs : List (Nat × Nat)) (base : Word) (s : State) :
    s.setSegs segs base.toNat = { s with seg := segsOf segs base, segWritten := true } := by
  rw [State.setSegs, BitVec.ofNat_toNat, BitVec.setWidth_eq]
  rfl

/-- XLATE where `BUSY = 0` is its two tests and its outcome; `CS_OE` is not tested. -/
theorem exec_xlate {s : State} (hq : s.seq = .idle) (p n base : Word) :
    exec (.xlate p n base) s =
      guarded [(lenOverBuffer 2048 n, .lenRange), (baseTooHigh base, .baseRange)] s (outcomeOf (.xlate p n base)) := by
  simp [exec_eq, State.busy_eq_false.mpr hq, Instr.usesBus, testsOf]

/-- Settles O42: the segment registers XLATE writes, and its two refusals in order. -/
theorem xlateWritesTheSegments : Obligations.XlateWritesTheSegments := by
  intro p n base s hq
  rw [exec_xlate hq, ← segsOf_xlate]
  refine ⟨fun hn hb => guarded_next.mpr ⟨?_, ?_⟩, fun hn => ?_, fun hn hb => ?_⟩
  · simp [lenOverBuffer, baseTooHigh, hn, hb]
  · rw [outcomeOf, effectOf_sample, effectOf, txnsOf, drawsOf, updateOf, setSegs_eq, State.drew_zero, State.did_nil]
    rfl
  · simp [guarded, firstRefusal, lenOverBuffer, hn]
  · simp [guarded, firstRefusal, lenOverBuffer, baseTooHigh, Nat.not_lt.mpr hn, hb]

/-! ## Where the bytes of a split write land (R195, R213) -/

/-- Locations of one bank go up with the address (R61). -/
theorem locOf_add (ctl : Byte) (a i : Nat) : locOf ctl (a + i) = locOf ctl a + i := (Nat.add_assoc _ _ _).symm

/-- A location that is no address of any piece is outside each piece. -/
theorem misses_of_ne_locOf {ctl : Byte} {ps : List (Nat × Nat)} {a : Nat} (h : ∀ x ∈ pieceAddrs ps, a ≠ locOf ctl x) :
    ∀ q ∈ ps, Run.misses (locOf ctl q.1, q.2) a := by
  intro q hq
  by_contra hin
  obtain ⟨k, hk, rfl⟩ : ∃ k < q.2, a = locOf ctl q.1 + k :=
    ⟨a - locOf ctl q.1, by simp only [Run.misses] at hin; omega⟩
  exact h _ (List.mem_flatMap.mpr ⟨q, hq, List.mem_range'_1.mpr (by omega)⟩) (locOf_add ctl q.1 k).symm

/-- A split write whose pieces share no address puts byte `i` of its data at address `i` of its pieces. -/
theorem read_writeTxns_inside (ctl : Byte) {ps : List (Nat × Nat)} {bs : List Byte} (m : Memory) {i x : Nat}
    (hp : ∀ q ∈ ps, q.1 < 65536) (hnd : (pieceAddrs ps).Nodup) (hl : bs.length = totalLen ps)
    (hx : (pieceAddrs ps)[i]? = some x) : Memory.read (locOf ctl x) (memAfter (writeTxns ctl ps bs) m) = bs[i]? := by
  induction ps generalizing bs m i with
  | nil => simp at hx
  | cons q ps ih =>
    rw [totalLen_cons] at hl
    rw [pieceAddrs_cons] at hx hnd
    obtain ⟨_, hnd', hdisj⟩ := List.nodup_append.mp hnd
    obtain ⟨hq, hp'⟩ := List.forall_mem_cons.mp hp
    rw [writeTxns, memAfter_cons]
    rcases Nat.lt_or_ge i q.2 with hi | hi
    · -- the byte is one of the first piece, and the pieces after it do not meet it
      rw [List.getElem?_append_left (by simpa using hi), List.getElem?_range' hi, Option.some.injEq, Nat.one_mul] at hx
      subst hx
      have hmem : q.1 + i ∈ List.range' q.1 q.2 := List.mem_range'_1.mpr (by omega)
      rw [read_writeTxns_outside ctl ps _ _ _ hp' (misses_of_ne_locOf fun y hy => ?_), Txn.store, BitVec.toNat_ofNat,
        Nat.mod_eq_of_lt hq]
      · have hi' : i < (bs.take q.2).length := by
          rw [List.length_take]
          omega
        rw [locOf_add, Memory.read_writeRun_inside _ _ i m hi', List.getElem_take, List.getElem?_eq_getElem]
      · intro he
        exact hdisj _ hmem y hy (Nat.add_left_cancel he)
    · rw [List.getElem?_append_right (by simpa using hi), List.length_range'] at hx
      rw [ih _ hp' hnd' (by simp [hl]) hx, List.getElem?_drop, Nat.add_sub_cancel' hi]

/-- Distinct bytes of a transfer no longer than the buffer have distinct addresses. -/
theorem ringAddr_injOn {p S B i j : Nat} (hi : i < S) (hj : j < S) (h : ringAddr p S B i = ringAddr p S B j) : i = j :=
  (Nat.ModEq.add_left_cancel' p (Nat.add_left_cancel h)).eq_of_lt_of_lt hi hj

/-- The pieces of a translation share no address. -/
theorem nodup_pieceAddrs_xlate {p n S : Nat} (hS : 0 < S) (hn : n ≤ S) (B : Nat) : (pieceAddrs (xlate p n S B)).Nodup := by
  rw [pieceAddrs_xlate hS hn]
  refine List.Nodup.map_on (fun i hi j hj => ?_) List.nodup_range
  exact ringAddr_injOn ((List.mem_range.mp hi).trans_le hn) ((List.mem_range.mp hj).trans_le hn)

section

variable {c : Cfg} {sock : Sock} {p len : Word} {bs : List Byte}

/-- Byte `i` of a ring write lands at `Addr(i)` of the transmit buffer (R195, R213). -/
theorem read_ringWrites_inside (hc : c.Ok) (hn : len.toNat ≤ 2048) (hl : bs.length = len.toNat) (m : Memory) {i : Nat}
    (hi : i < len.toNat) :
    Memory.read (locOf (snCtl sock c.bankTx true) (ringAddr p.toNat 2048 (c.txBase sock).toNat i))
      (memAfter (ringWrites c sock p len bs) m) = bs[i]? := by
  refine read_writeTxns_inside _ m (xlate_fst_lt (by decide) (txBase_fits hc sock))
    (nodup_pieceAddrs_xlate (by decide) hn _) (hl.trans (totalLen_xlate (by decide)).symm) ?_
  rw [txPieces, pieceAddrs_xlate (by decide) hn, List.getElem?_map, List.getElem?_range hi]
  rfl

/-- A ring write leaves every location that is no `Addr(i)` of the transmit buffer alone (R195, R213). -/
theorem read_ringWrites_of_ne (hc : c.Ok) (hn : len.toNat ≤ 2048) (m : Memory) {a : Nat}
    (h : ∀ i < len.toNat, a ≠ locOf (snCtl sock c.bankTx true) (ringAddr p.toNat 2048 (c.txBase sock).toNat i)) :
    Memory.read a (memAfter (ringWrites c sock p len bs) m) = Memory.read a m := by
  refine read_writeTxns_outside _ _ _ _ _ (xlate_fst_lt (by decide) (txBase_fits hc sock)) (misses_of_ne_locOf ?_)
  rw [txPieces, pieceAddrs_xlate (by decide) hn, List.forall_mem_map]
  exact fun i hi => h i (List.mem_range.mp hi)

end

/-- A length of R211 passes its tests. -/
theorem ringChecks_of_fits {size : Nat} {len : Word} (hl : 1 ≤ len.toNat) (hn : len.toNat ≤ size) :
    ∀ c ∈ ringChecks size len, c.1 = false := by
  have hz : len ≠ 0#16 := by
    rintro rfl
    contradiction
  simp [ringChecks, lenIsZero, lenOverBuffer, hz, hn]

/-- SENDOFS from a ready state that passes its tests writes the ring and leaves its outcome (R221). -/
theorem exec_sendofs {sock : Sock} {offset len : Word} {s : State} (hs : s.Ready) (hl : 1 ≤ len.toNat)
    (hn : len.toNat ≤ 2048) (hd : len.toNat ≤ s.din.length) :
    exec (.sendofs sock offset len) s = .next (outcomeOf (.sendofs sock offset len) s) :=
  exec_next.mpr (.inr ⟨fun _ => hs.1, fun _ => hs.2,
    List.forall_mem_append.mpr ⟨ringChecks_of_fits hl hn, dinChecks_of_le hd⟩, rfl⟩)

/-- Settles O47: SENDOFS is one ring write, whose bytes land at their addresses and touch nothing else. -/
theorem stagedBytesLandInRingOrder : Obligations.StagedBytesLandInRingOrder := by
  intro sock offset len s hc hs hl hn hd
  refine ⟨_, exec_sendofs hs hl hn hd, fun i hi => ?_, fun a ha => ?_⟩
  · rw [outcomeOf_chipMem, txnsOf, read_ringWrites_inside hc hn (List.length_take_of_le hd) _ hi,
      List.getElem?_take_of_lt hi]
  · rw [outcomeOf_chipMem, txnsOf, read_ringWrites_of_ne hc hn _ ha]

end Sys2Proof.Machine

/-! # The transfers (43_transfer) -/

namespace Sys2Proof.Machine

/-! ## What each transfer does (R212, R216, R221, R226) -/

/-- Settles O43: RDDATA is one ring read, whose bytes go to `DOUT`. -/
theorem rddataReadsTheRing : Obligations.RddataReadsTheRing := by
  intro sock src len s hs hl hn
  refine exec_ready hs rfl (ringChecks_of_fits hl hn) ?_
  rw [effectOf, updateOf, setSegs_eq]
  rfl

/-- Settles O44: SEND is a ring write between a read and a write of TX_WR. -/
theorem sendStagesAndWritesBack : Obligations.SendStagesAndWritesBack := by
  intro sock len s hs hl hn hd
  obtain ⟨h, l, hhl⟩ := List.length_eq_two.mp (s.nextBytes_length 2)
  have ht := List.forall_mem_append.mpr ⟨ringChecks_of_fits hl hn, dinChecks_of_le hd⟩
  refine ⟨h, l, hhl, exec_ready hs rfl ht ?_⟩
  rw [effectOf, txnsOf, updateOf, setSegs_eq, State.nextWord, hhl]
  rfl

/-- An advanced pointer in numbers (R217). -/
theorem advance_eq (p n : Word) : advance p n = BitVec.ofNat 16 ((p.toNat + n.toNat) % 65536) := by
  apply BitVec.eq_of_toNat_eq
  simp [advance]

/-- Settles O45: SENDOFS is one ring write, and RES the advanced offset. -/
theorem sendofsStagesAtTheOffset : Obligations.SendofsStagesAtTheOffset := by
  intro sock offset len s hs hl hn hd
  have ht := List.forall_mem_append.mpr ⟨ringChecks_of_fits hl hn, dinChecks_of_le hd⟩
  refine exec_ready hs rfl ht ?_
  rw [effectOf, drawsOf, State.drew_zero, updateOf, setSegs_eq, advance_eq]
  rfl

/-- Settles O46: RECV is a ring read after a read of RX_RD, and before a write of it unless peeking. -/
theorem recvDrainsOrPeeks : Obligations.RecvDrainsOrPeeks := by
  intro sock peek len s hs hl hn
  obtain ⟨h, l, hhl⟩ := List.length_eq_two.mp (s.nextBytes_length 2)
  refine ⟨h, l, (s.drew 2).nextBytes len.toNat, by rw [State.nextBytes_add, hhl]; rfl,
    exec_ready hs rfl (ringChecks_of_fits hl hn) ?_⟩
  rw [effectOf, txnsOf, updateOf, setSegs_eq, State.nextWord, hhl]
  rfl

/-- An instruction keeps the configuration (R43). -/
theorem outcomeOf_cfg (i : Instr) (s : State) : (outcomeOf i s).cfg = s.cfg := by
  simp [outcomeOf, effectOf]

/-- An instruction takes its bytes from the front of `DIN` (R32). -/
theorem outcomeOf_din (i : Instr) (s : State) : (outcomeOf i s).din = s.din.drop i.takesDin := updateOf_din i _

/-- An operation that writes the segment registers ends where it starts (R24, R26). -/
theorem updateOf_seq_of_writesSegs {i : Instr} (hi : i.writesSegs = true) (s : State) : (updateOf i s).seq = s.seq := by
  cases i <;> simp_all [updateOf, Instr.writesSegs]

/-- After such an operation RBAT is ready again. -/
theorem State.Ready.outcomeOf {i : Instr} {s : State} (hs : s.Ready) (hi : i.writesSegs = true) : (outcomeOf i s).Ready := by
  obtain ⟨hq, hoe, hcsn⟩ := hs
  have hne : i ≠ .init := by
    rintro rfl
    contradiction
  obtain ⟨hoe', hcsn'⟩ := updateOf_lines hne (s.sample (operandsOf i s))
  exact ⟨(updateOf_seq_of_writesSegs hi _).trans hq, hoe'.trans hoe, hcsn'.trans hcsn⟩

/-! ## Threaded offsets (R222, R223) -/

/-- Bytes from an advanced pointer on continue the transfer it was advanced by (R196). -/
theorem ringAddr_add (p : Word) (n B i : Nat) :
    ringAddr (p + BitVec.ofNat 16 n).toNat 2048 B i = ringAddr p.toNat 2048 B (n + i) := by
  obtain ⟨_, _, _, h⟩ := advancedPointerContinuesTheTransfer p.toNat n 0 2048 B (by decide) (by decide)
  rw [← h i, BitVec.toNat_add, BitVec.toNat_ofNat, Nat.add_mod_mod]

/-- SENDOFS calls lead from `s` to `t` and have placed the first `n` bytes of `DIN` in the ring from offset `w` on. -/
structure State.Assembles (sock : Sock) (w : Word) (s : State) (n : Nat) (t : State) : Prop where
  ready : t.Ready
  cfg : t.cfg = s.cfg
  din : t.din = s.din.drop n
  staged : ∀ i < n,
    Memory.read (locOf (snCtl sock s.cfg.bankTx true) (ringAddr w.toNat 2048 (s.cfg.txBase sock).toNat i)) t.chipMem = s.din[i]?
  trace : ∃ ts, t.trace = s.trace ++ ts ∧ ∀ x ∈ ts, x.ctl = snCtl sock s.cfg.bankTx true

/-- Before the first call nothing is placed. -/
theorem State.Assembles.start {s : State} (hs : s.Ready) (sock : Sock) (w : Word) : State.Assembles sock w s 0 s where
  ready := hs
  cfg := rfl
  din := rfl
  staged := by simp
  trace := ⟨[], by simp⟩

/-- Two bytes of one unit do not share a location. -/
theorem locOf_ringAddr_ne {ctl : Byte} {p B i j : Nat} (hi : i < 2048) (hj : j < 2048) (h : i ≠ j) :
    locOf ctl (ringAddr p 2048 B i) ≠ locOf ctl (ringAddr p 2048 B j) :=
  fun he => h (ringAddr_injOn hi hj (Nat.add_left_cancel he))

/-- A further call, at the first offset plus the bytes placed so far, places its bytes after them. -/
theorem State.Assembles.sendofs {sock : Sock} {w p len : Word} {s t : State} {n : Nat} (ha : State.Assembles sock w s n t)
    (hc : s.cfg.Ok) (hp : p = w + BitVec.ofNat 16 n) (hl : 1 ≤ len.toNat) (hn : n + len.toNat ≤ 2048)
    (hd : n + len.toNat ≤ s.din.length) :
    ∃ u, exec (.sendofs sock p len) t = .next u ∧ u.res = p + len ∧ State.Assembles sock w s (n + len.toNat) u := by
  subst hp
  obtain ⟨hready, hcfg, hdin, hstaged, ts, htr, hts⟩ := ha
  have hd' : len.toNat ≤ t.din.length := by
    rw [hdin, List.length_drop]
    omega
  refine ⟨_, exec_sendofs hready hl (by omega) hd', rfl, ?_⟩
  constructor
  case ready => exact hready.outcomeOf rfl
  case cfg => rw [outcomeOf_cfg, hcfg]
  case din =>
    rw [outcomeOf_din, hdin, List.drop_drop]
    rfl
  case staged =>
    intro i hi
    rw [outcomeOf_chipMem, txnsOf, hcfg]
    rcases Nat.lt_or_ge i n with h | h
    · rw [read_ringWrites_of_ne hc (by omega), hstaged i h]
      intro j hj
      rw [ringAddr_add]
      exact locOf_ringAddr_ne (by omega) (by omega) (by omega)
    · obtain ⟨j, rfl⟩ := Nat.exists_eq_add_of_le h
      rw [← ringAddr_add, read_ringWrites_inside hc (by omega) (List.length_take_of_le hd') _ (by omega),
        List.getElem?_take_of_lt (by omega), hdin, List.getElem?_drop]
  case trace =>
    refine ⟨ts ++ txnsOf (.sendofs sock (w + BitVec.ofNat 16 n) len) t, ?_, List.forall_mem_append.mpr ⟨hts, fun x hx => ?_⟩⟩
    · rw [outcomeOf_trace, htr, List.append_assoc]
    · rw [← hcfg]
      exact (mem_writeTxns hx).1

/-- Settles O48: three calls that each assemble on. -/
theorem threadedOffsetsAssembleOneUnit : Obligations.ThreadedOffsetsAssembleOneUnit := by
  intro sock w0 a b c s hc hs ha hb hc3 hn hd
  obtain ⟨t1, e1, r1, h1⟩ := (State.Assembles.start hs sock w0).sendofs (p := w0) hc (by simp) ha (by omega) (by omega)
  obtain ⟨t2, e2, r2, h2⟩ := h1.sendofs (p := t1.res) hc (by simp [r1]) hb (by omega) (by omega)
  obtain ⟨t3, e3, r3, h3⟩ :=
    h2.sendofs (p := t2.res) hc (by simp [r1, r2, BitVec.ofNat_add, BitVec.add_assoc]) hc3 (by omega) (by omega)
  rw [r1] at r2
  rw [r2] at r3
  rw [Nat.zero_add] at h3
  exact ⟨t1, t2, t3, e1, r1, e2, r2, e3, r3, h3.staged, h3.trace⟩

/-! ## Peeking (R227, R228) -/

/-- RECV from a ready state that passes its tests leaves its outcome (R226). -/
theorem exec_recv {sock : Sock} {peek : Bool} {len : Word} {s : State} (hs : s.Ready) (hl : 1 ≤ len.toNat)
    (hn : len.toNat ≤ 2048) : exec (.recv sock peek len) s = .next (outcomeOf (.recv sock peek len) s) :=
  exec_next.mpr (.inr ⟨fun _ => hs.1, fun _ => hs.2, ringChecks_of_fits hl hn, rfl⟩)

/-- RECV puts what the chip answers after the pointer on `DOUT`. -/
theorem dout_recv (sock : Sock) (peek : Bool) (len : Word) (s : State) :
    (outcomeOf (.recv sock peek len) s).dout = s.dout ++ (s.drew 2).nextBytes len.toNat := by
  simp [outcomeOf, effectOf, updateOf]

/-- RECV leaves the pointer it read in `PTR`. -/
theorem ptr_recv (sock : Sock) (peek : Bool) (len : Word) (s : State) :
    (outcomeOf (.recv sock peek len) s).ptr = s.nextWord := by
  simp [outcomeOf, effectOf, updateOf, State.nextWord]

/-- Where the chip answers pointer and data as it did, a drain does the transactions of the peek, then writes the pointer. -/
theorem txnsOf_drain {sock : Sock} {len : Word} {s t : State} (hcfg : t.cfg = s.cfg) (h2 : t.nextBytes 2 = s.nextBytes 2)
    (hd : (t.drew 2).nextBytes len.toNat = (s.drew 2).nextBytes len.toNat) :
    txnsOf (.recv sock false len) t = txnsOf (.recv sock true len) s ++
      [regWrite s.cfg sock s.cfg.offRxRd (bytesOfWord (s.nextWord + len))] := by
  simp [txnsOf, State.nextWord, hcfg, h2, hd, advance]

/-- A peek does reads only. -/
theorem isWrite_of_peek {sock : Sock} {len : Word} {s : State} {x : Txn} (h : x ∈ txnsOf (.recv sock true len) s) :
    x.isWrite = false := by
  rw [txnsOf, if_pos rfl, List.append_nil] at h
  rcases List.mem_append.mp h with h | h
  · rw [List.mem_singleton.mp h]
    rfl
  · exact (mem_readTxns h).2

/-- A peek leaves the chip space alone. -/
theorem memAfter_peek (sock : Sock) (len : Word) (s : State) (m : Memory) :
    memAfter (txnsOf (.recv sock true len) s) m = m := by
  rw [txnsOf, if_pos rfl, List.append_nil, memAfter_append, ringReads, memAfter_readTxns]
  rfl

/-- Settles O49: the drain is the peek over again and the write of the pointer. -/
theorem peekThenDrainGivesTheSameBytes : Obligations.PeekThenDrainGivesTheSameBytes := by
  intro sock len s hs hl hn
  refine ⟨_, _, (s.drew 2).nextBytes len.toNat, txnsOf (.recv sock true len) s, exec_recv hs hl hn,
    exec_recv (hs.outcomeOf rfl) hl hn, dout_recv _ _ _ _, State.nextBytes_length _ _, ?_, outcomeOf_trace _ _,
    fun x => isWrite_of_peek, fun hsame => ?_⟩
  · rw [outcomeOf_chipMem, memAfter_peek]
  · rw [State.nextBytes_add, State.nextBytes_add] at hsame
    obtain ⟨h2, hd⟩ := List.append_inj hsame (by simp)
    refine ⟨?_, ?_⟩
    · rw [dout_recv, hd]
    · rw [outcomeOf_trace, txnsOf_drain (outcomeOf_cfg _ _) h2 hd, ptr_recv, List.append_assoc]
      rfl

/-- Two bytes read as a word are its data bytes (R115). -/
theorem bytesOfWord_nextWord (s : State) : bytesOfWord s.nextWord = s.nextBytes 2 := by
  obtain ⟨h, l, hhl⟩ := List.length_eq_two.mp (s.nextBytes_length 2)
  have hh : (h ++ l : Word).extractLsb' 8 8 = h := BitVec.extractLsb'_append_eq_left
  have hl : (h ++ l : Word).extractLsb' 0 8 = l := BitVec.extractLsb'_append_eq_right
  rw [State.nextWord, hhl, wordOfBytes, bytesOfWord, hh, hl]

/-- The state in which RX_RD has been read (R218). -/
def State.afterRxRd (sock : Sock) (s : State) : State := (s.drew 2).did [regRead s.cfg sock s.cfg.offRxRd (s.nextBytes 2)]

/-- A peek leaves what RDDATA leaves after the read of RX_RD, its own operands and `PTR` apart. -/
theorem outcomeOf_peek (sock : Sock) (len : Word) (s : State) :
    outcomeOf (.recv sock true len) s =
      ((outcomeOf (.rddata sock s.nextWord len) (s.afterRxRd sock)).sample (fieldsOf (.recv sock true len))).setPtr
        s.nextWord := by
  simp [outcomeOf, effectOf, updateOf, drawsOf, txnsOf, operandsOf, State.afterRxRd, State.nextWord, State.did_did,
    State.did_drew, State.drew_drew]
  rfl

/-- Settles O50: a peek is a read of RX_RD, then RDDATA. -/
theorem peekIsRddataAtTheChipsPointer : Obligations.PeekIsRddataAtTheChipsPointer := by
  intro sock len s t hs h
  obtain ⟨_, ht, rfl⟩ := exec_next_startsIn (fun _ => hs.1) h
  rw [ptr_recv, bytesOfWord_nextWord]
  refine ⟨outcomeOf (.rddata sock s.nextWord len) (s.afterRxRd sock),
    exec_next.mpr (.inr ⟨fun _ => hs.1, fun _ => hs.2, ht, rfl⟩), ?_⟩
  simp [outcomeOf_peek]

/-! ## The round trip (R229) -/

/-- Bits [7:3] of a control byte are its socket and its bank (R61, R110). -/
theorem toNat_snCtl_div (sock : Sock) (b : Bank) (wr : Bool) : (snCtl sock b wr).toNat / 8 = sock.toNat * 4 + b.toNat := by
  revert sock b wr
  decide

/-- A run in one bank of a socket misses every location in another. -/
theorem misses_of_bank_ne {sock : Sock} {b b' : Bank} {wr wr' : Bool} {a n x : Nat} (hb : b ≠ b') (ha : a + n ≤ 65536)
    (hx : x < 65536) : Run.misses (locOf (snCtl sock b wr) a, n) (locOf (snCtl sock b' wr') x) := by
  rw [← BitVec.toNat_inj.ne] at hb
  simp only [Run.misses, locOf_eq, toNat_snCtl_div]
  omega

/-- SEND leaves its bytes in the ring from its pointer on: the write of the pointer is in another bank (R216). -/
theorem read_send_inside {sock : Sock} {len : Word} {s : State} (hc : s.cfg.Ok) (hn : len.toNat ≤ 2048)
    (hd : len.toNat ≤ s.din.length) {i : Nat} (hi : i < len.toNat) :
    Memory.read (locOf (snCtl sock s.cfg.bankTx true) (ringAddr s.nextWord.toNat 2048 (s.cfg.txBase sock).toNat i))
      (outcomeOf (.send sock len) s).chipMem = s.din[i]? := by
  obtain ⟨_, _, hwr, _, _⟩ := mem_regs s.cfg
  have hfit := sreg_fits hc sock hwr
  have hreg := toNat_regAddr_le s.cfg sock s.cfg.offTxWr
  have hbase := txBase_fits hc sock
  have haddr : ringAddr s.nextWord.toNat 2048 (s.cfg.txBase sock).toNat i < 65536 := by
    rw [ringAddr]
    omega
  have hmiss : Run.misses (locOf (wrCtl sock) (regAddr s.cfg sock s.cfg.offTxWr).toNat, 2)
      (locOf (snCtl sock s.cfg.bankTx true) (ringAddr s.nextWord.toNat 2048 (s.cfg.txBase sock).toNat i)) :=
    misses_of_bank_ne (bufferBanks_ne_sreg hc).1.symm (by omega) haddr
  rw [outcomeOf_chipMem, txnsOf, memAfter_append, memAfter_append, read_write_outside (by simp) hmiss,
    read_ringWrites_inside hc hn (List.length_take_of_le hd) _ hi, List.getElem?_take_of_lt hi]

/-- SEND leaves `DOUT` alone and the pointer it read in `PTR`. -/
theorem dout_ptr_send (sock : Sock) (len : Word) (s : State) :
    (outcomeOf (.send sock len) s).dout = s.dout ∧ (outcomeOf (.send sock len) s).ptr = s.nextWord := by
  simp [outcomeOf, effectOf, updateOf, State.nextWord]

/-- Settles O51: the chip answers, byte by byte, what SEND delivered. -/
theorem roundTripUnderLoopback : Obligations.RoundTripUnderLoopback := by
  intro sock len s t hc hs hl hn hd hbase h hloop
  obtain ⟨_, _, ht⟩ := exec_next_startsIn (fun _ => hs.1) h
  have hready : t.Ready := ht ▸ hs.outcomeOf rfl
  obtain ⟨hdout, hptr⟩ := ht ▸ dout_ptr_send sock len s
  have hsent : t.nextBytes len.toNat = s.din.take len.toNat := by
    refine List.ext_getElem? fun i => ?_
    rcases Nat.lt_or_ge i len.toNat with hi | hi
    · rw [hloop i hi, ← hbase, hptr, ht, read_send_inside hc hn hd hi, List.getElem?_take_of_lt hi]
    · rw [List.getElem?_eq_none (by simpa using hi), List.getElem?_eq_none (by simp; omega)]
  refine ⟨_, rddataReadsTheRing sock _ len _ hready hl hn, ?_⟩
  rw [← hsent, ← hdout]

end Sys2Proof.Machine

/-! # Commands and sizes (44_command_status) -/

namespace Sys2Proof.Machine

/-! ## Turns, answers and values -/

theorem rbatTurns_succ {n : Nat} {s u : State} :
    rbatTurns (n + 1) s = .next u ↔ ∃ t, rbatTurn s = .next t ∧ rbatTurns n t = .next u := by
  rw [rbatTurns]
  cases rbatTurn s <;> simp

/-- A turn after `n` turns is the last of `n + 1`. -/
theorem rbatTurns_snoc {n : Nat} {s t u : State} (h : rbatTurns n s = .next t) (ht : rbatTurn t = .next u) :
    rbatTurns (n + 1) s = .next u := by
  induction n generalizing s with
  | zero =>
    cases h
    exact rbatTurns_succ.mpr ⟨u, ht, rfl⟩
  | succ n ih =>
    obtain ⟨v, hv, hn⟩ := rbatTurns_succ.mp h
    exact rbatTurns_succ.mpr ⟨v, hv, ih hn⟩

/-- Known answers, cut where a read ends. -/
theorem State.nextBytes_split {s : State} {m n : Nat} {xs ys : List Byte} (h : s.nextBytes (m + n) = xs ++ ys)
    (hm : xs.length = m) : s.nextBytes m = xs ∧ (s.drew m).nextBytes n = ys :=
  List.append_inj (s.nextBytes_add m n ▸ h) (by simp [hm])

theorem wordOfBytes_bytesOfWord (v : Word) : wordOfBytes (bytesOfWord v) = v :=
  (BitVec.extractLsb'_append_extractLsb'_eq_extractLsb' rfl).trans BitVec.extractLsb'_eq_self

theorem bytesOfWord_append (h l : Byte) : bytesOfWord (h ++ l) = [h, l] :=
  congrArg₂ (fun x y => [x, y]) BitVec.extractLsb'_append_eq_left BitVec.extractLsb'_append_eq_right

/-- Two values are equal where both their bytes are (R115, R246). -/
theorem append_byte_eq_iff {h l h' l' : Byte} : (h ++ l : Word) = h' ++ l' ↔ h = h' ∧ l = l' := by
  refine ⟨fun e => ?_, fun ⟨hh, hl⟩ => hh ▸ hl ▸ rfl⟩
  simpa [bytesOfWord_append] using congrArg bytesOfWord e

/-- Initialised, chip-select high, and SEQ at `q`: where a loop makes its next read. -/
abbrev State.At (q : Seq) (s : State) : Prop := s.seq = q ∧ s.csOe = true ∧ s.csn = true

/-! ## EXEC (R242, R244, R252) -/

/-- A poll that reads 0 ends EXEC, any other goes on (R244). -/
theorem rbatTurn_poll {s : State} (hs : s.At .execPoll) {b : Byte} (hb : s.nextBytes 1 = [b]) :
    rbatTurn s = .next (((s.setSeq (if b = 0 then .idle else .execPoll)).drew 1).did
      [regRead s.cfg s.sock s.cfg.offCr [b]]) := by
  obtain ⟨hq, hoe, hc⟩ := hs
  rw [rbatTurn_execPoll hq]
  refine onBus_next.mpr ⟨hoe, hc, nofun, ?_⟩
  rw [pollCommand_high hc, hb]
  simp [byteOfBytes]

/-- As many polls as read a value other than 0 are made, and nothing else. -/
theorem rbatTurns_polls {n : Nat} {s : State} (hs : s.At .execPoll) (hb : ∀ b ∈ s.nextBytes n, b ≠ 0) :
    rbatTurns n s = .next ((s.drew n).did ((s.nextBytes n).map fun b => regRead s.cfg s.sock s.cfg.offCr [b])) := by
  induction n generalizing s with
  | zero => simp [rbatTurns, State.nextBytes, envBytes]
  | succ n ih =>
    obtain ⟨b, h1⟩ := List.length_eq_one_iff.mp (s.nextBytes_length 1)
    have hadd : s.nextBytes (n + 1) = b :: (s.drew 1).nextBytes n := by
      rw [Nat.add_comm, State.nextBytes_add, h1, List.singleton_append]
    rw [hadd, List.forall_mem_cons] at hb
    have hturn : rbatTurn s = .next ((s.drew 1).did [regRead s.cfg s.sock s.cfg.offCr [b]]) := by
      rw [rbatTurn_poll hs h1, if_neg hb.1, ← hs.1]
      rfl
    have hrest := ih (s := (s.drew 1).did [regRead s.cfg s.sock s.cfg.offCr [b]]) hs hb.2
    rw [State.did_drew, State.did_did, State.drew_drew, Nat.add_comm 1 n, State.nextBytes_did] at hrest
    rw [hadd]
    exact rbatTurns_succ.mpr ⟨_, hturn, hrest⟩

/-- EXEC after its write and `n` polls that read a value other than 0. -/
def State.afterPolls (sock : Sock) (cmd : Byte) (n : Nat) (s : State) : State :=
  (((s.sample (fieldsOf (.execCmd sock cmd))).setSeq .execPoll).drew n).did
    (regWrite s.cfg sock s.cfg.offCr [cmd] :: (s.nextBytes n).map fun b => regRead s.cfg sock s.cfg.offCr [b])

section

variable (sock : Sock) (cmd : Byte) (n : Nat) (s : State)

theorem State.afterPolls_sock : (s.afterPolls sock cmd n).sock = sock := selSock_selOf sock false

@[simp] theorem State.afterPolls_nextBytes (m : Nat) : (s.afterPolls sock cmd n).nextBytes m = (s.drew n).nextBytes m := by
  simp [State.afterPolls]

theorem State.afterPolls_at (hs : s.Ready) : (s.afterPolls sock cmd n).At .execPoll := by
  simpa [State.afterPolls, State.At] using hs.2

end

/-- Settles O52: EXEC writes its command and polls once; SEQ is as that poll has it. -/
theorem execWritesThenPolls : Obligations.ExecWritesThenPolls := by
  intro sock cmd s hs
  obtain ⟨b, hb⟩ := List.length_eq_one_iff.mp (s.nextBytes_length 1)
  refine ⟨b, hb, exec_ready hs rfl nofun ?_⟩
  rw [effectOf, txnsOf, updateOf, hb]
  simp only [byteOfBytes, beq_iff_eq]
  rfl

/-- EXEC is the write of its command, then a turn at the poll. -/
theorem exec_execCmd {s : State} (hs : s.Ready) (sock : Sock) (cmd : Byte) :
    exec (.execCmd sock cmd) s = rbatTurn (s.afterPolls sock cmd 0) := by
  obtain ⟨b, hb, he⟩ := execWritesThenPolls sock cmd s hs
  rw [he, rbatTurn_poll (s.afterPolls_at sock cmd 0 hs) (by simpa using hb), State.afterPolls_sock, State.afterPolls,
    State.setSeq_did, State.did_drew, State.did_did, State.drew_zero]
  rfl

/-- EXEC and `n` turns are the write of the command and `n + 1` turns at the poll. -/
theorem execCmd_turns {s u : State} (hs : s.Ready) {sock : Sock} {cmd : Byte} {n : Nat}
    (h : rbatTurns (n + 1) (s.afterPolls sock cmd 0) = .next u) :
    ∃ t, exec (.execCmd sock cmd) s = .next t ∧ rbatTurns n t = .next u := by
  rw [exec_execCmd hs]
  exact rbatTurns_succ.mp h

/-- Where no poll reads 0, every poll is made. -/
theorem rbatTurns_afterPolls {s : State} (hs : s.Ready) (sock : Sock) (cmd : Byte) {n : Nat}
    (hb : ∀ b ∈ s.nextBytes n, b ≠ 0) :
    rbatTurns n (s.afterPolls sock cmd 0) = .next (s.afterPolls sock cmd n) := by
  rw [rbatTurns_polls (s.afterPolls_at sock cmd 0 hs) (by simpa using hb), State.afterPolls_sock, State.afterPolls_nextBytes,
    State.afterPolls, State.did_drew, State.did_did, State.drew_drew, State.drew_zero, State.drew_zero, Nat.zero_add]
  rfl

/-- Settles O53: every poll but the last goes on, and the last one ends EXEC. -/
theorem execEndsAtTheFirstZeroPoll : Obligations.ExecEndsAtTheFirstZeroPoll := by
  intro sock cmd polls s hs hne hb
  obtain ⟨hpolls, hlast⟩ := State.nextBytes_split hb rfl
  have hturns := rbatTurns_afterPolls hs sock cmd (n := polls.length) (by rwa [hpolls])
  have hend := rbatTurn_poll (s.afterPolls_at sock cmd polls.length hs) (b := 0) (by simpa using hlast)
  rw [if_pos rfl, State.afterPolls_sock] at hend
  obtain ⟨t, ht, hu⟩ := execCmd_turns hs (rbatTurns_snoc hturns hend)
  refine ⟨t, _, ht, hu, rfl, ?_⟩
  simp [State.afterPolls, hpolls, regAddr]

/-- Settles O54: only polls that go on are made. -/
theorem execNeverEndsOnASilentChip : Obligations.ExecNeverEndsOnASilentChip := by
  intro sock cmd n s hs hb
  obtain ⟨t, ht, hu⟩ := execCmd_turns hs (rbatTurns_afterPolls hs sock cmd hb)
  obtain ⟨_, _, hc⟩ := s.afterPolls_at sock cmd (n + 1) hs
  exact ⟨t, _, ht, hu, rfl, hc, rfl⟩

/-! ## TXFREE and RXSIZE (R245, R246, R249) -/

theorem State.compare_same {s : State} {v : Word} (again : Seq) (h : v = s.vprev) :
    s.compare v again = (s.setRes v).setSeq .idle := by
  simp [State.compare, State.setRes, State.setSeq, ← h]

theorem State.compare_other {s : State} {v : Word} (again : Seq) (h : v ≠ s.vprev) :
    s.compare v again = (s.setVprev v).setSeq again := by
  simp [State.compare, State.setVprev, State.setSeq, h]

section

variable (s : State) (v w : Word) (q again : Seq)

@[simp] theorem State.compare_did (ts : List Txn) : (s.did ts).compare v again = (s.compare v again).did ts := rfl
@[simp] theorem State.drew_compare (n : Nat) : (s.compare v again).drew n = (s.drew n).compare v again := rfl
@[simp] theorem State.compare_setSeq : (s.setSeq q).compare v again = s.compare v again := rfl
@[simp] theorem State.setVprev_setSeq : (s.setSeq q).setVprev v = (s.setVprev v).setSeq q := rfl
@[simp] theorem State.setVprev_setVprev : (s.setVprev v).setVprev w = s.setVprev w := rfl

end

/-- What TXFREE and RXSIZE have in common: an operation that compares reads of one register, the first two in its own step, each
further one in a turn. -/
structure SizeRead where
  /-- The operation at a socket. -/
  op : Sock → Instr
  /-- The offset of its register (R6). -/
  off : Cfg → Word
  /-- Where SEQ stands at each further read (R246). -/
  again : Seq
  notIdle : again ≠ .idle
  isRequest : ∀ sock, (op sock).isRequest = true
  sockOf : ∀ sock, selSock (fieldsOf (op sock)).sel = sock
  noTests : ∀ sock s, testsOf (op sock) s = []
  effect : ∀ sock s, effectOf (op sock) s = (((s.setVprev s.nextWord).compare (s.drew 2).nextWord again).drew (2 + 2)).did
    [regRead s.cfg sock (off s.cfg) (s.nextBytes 2), regRead s.cfg sock (off s.cfg) ((s.drew 2).nextBytes 2)]
  furtherRead : ∀ s : State, s.seq = again → rbatTurn s = onBus [] s fun t => compareRead (off t.cfg) again t

/-- TXFREE reads the TX free size (R245). -/
def SizeRead.txfree : SizeRead where
  op := .txfree
  off := Cfg.offTxFsr
  again := .txfreeRead
  notIdle := nofun
  isRequest _ := rfl
  sockOf sock := selSock_selOf sock false
  noTests _ _ := rfl
  effect _ _ := rfl
  furtherRead _ := rbatTurn_txfreeRead

/-- RXSIZE reads the RX received size (R249). -/
def SizeRead.rxsize : SizeRead where
  op := .rxsize
  off := Cfg.offRxRsr
  again := .rxsizeRead
  notIdle := nofun
  isRequest _ := rfl
  sockOf sock := selSock_selOf sock false
  noTests _ _ := rfl
  effect _ _ := rfl
  furtherRead _ := rbatTurn_rxsizeRead

namespace SizeRead

/-- The transaction that reads `v`. -/
abbrev txn (R : SizeRead) (c : Cfg) (sock : Sock) (v : Word) : Txn := regRead c sock (R.off c) (bytesOfWord v)

/-- The operation after reads of `v` and `ws`, the next read due. -/
def afterReads (R : SizeRead) (sock : Sock) (v : Word) (ws : List Word) (s : State) : State :=
  ((((s.sample (fieldsOf (R.op sock))).setSeq R.again).setVprev (ws.getLastD v)).drew (2 + 2 * ws.length)).did
    ((v :: ws).map (R.txn s.cfg sock))

section

variable (R : SizeRead) (sock : Sock) (v : Word) (ws : List Word) (s : State)

theorem afterReads_sock : (R.afterReads sock v ws s).sock = sock := R.sockOf sock

@[simp] theorem afterReads_vprev : (R.afterReads sock v ws s).vprev = ws.getLastD v := rfl

@[simp] theorem afterReads_nextBytes (m : Nat) :
    (R.afterReads sock v ws s).nextBytes m = (s.drew (2 + 2 * ws.length)).nextBytes m := by
  simp [afterReads]

theorem afterReads_at (hs : s.Ready) : (R.afterReads sock v ws s).At R.again := by
  simpa [afterReads, State.At] using hs.2

end

section

variable (R : SizeRead) {s : State} {v w : Word} {ws : List Word}

/-- A further read of `v` is compared with the read before it (R246). -/
theorem turn (hs : s.At R.again) (hv : s.nextBytes 2 = bytesOfWord v) :
    rbatTurn s = .next (((s.compare v R.again).drew 2).did [R.txn s.cfg s.sock v]) := by
  obtain ⟨hq, hoe, hc⟩ := hs
  rw [R.furtherRead s hq]
  refine onBus_next.mpr ⟨hoe, hc, nofun, ?_⟩
  rw [compareRead_high hc, hv, wordOfBytes_bytesOfWord]

/-- As many further reads as each give another value than the one before are made, and nothing else. -/
theorem turns (hs : s.At R.again) (hne : (s.vprev :: ws).IsChain (· ≠ ·))
    (hb : s.nextBytes (2 * ws.length) = ws.flatMap bytesOfWord) :
    rbatTurns ws.length s = .next (((s.setVprev (ws.getLastD s.vprev)).drew (2 * ws.length)).did
      (ws.map (R.txn s.cfg s.sock))) := by
  induction ws generalizing s with
  | nil =>
    rw [List.length_nil, Nat.mul_zero, State.drew_zero, List.map_nil, State.did_nil]
    rfl
  | cons w ws ih =>
    rw [List.isChain_cons_cons] at hne
    rw [List.length_cons, Nat.mul_succ, Nat.add_comm, List.flatMap_cons] at hb
    obtain ⟨hw, hrest⟩ := State.nextBytes_split hb (bytesOfWord_length w)
    have hturn : rbatTurn s = .next (((s.setVprev w).drew 2).did [R.txn s.cfg s.sock w]) := by
      rw [R.turn hs hw, State.compare_other _ hne.1.symm, ← hs.1]
      rfl
    have hih := ih (s := ((s.setVprev w).drew 2).did [R.txn s.cfg s.sock w]) hs hne.2 hrest
    rw [State.setVprev_did, State.did_drew, State.did_did, ← State.drew_setVprev, State.drew_drew, Nat.add_comm 2,
      ← Nat.mul_succ] at hih
    rw [List.getLastD_cons]
    exact rbatTurns_succ.mpr ⟨_, hturn, hih⟩

variable (hs : s.Ready) (sock : Sock)

include hs

/-- The whole of the operation's own step: two reads and their compare. -/
theorem exec_op (hv : s.nextBytes 2 = bytesOfWord v) (hw : (s.drew 2).nextBytes 2 = bytesOfWord w) :
    exec (R.op sock) s = .next (((((s.sample (fieldsOf (R.op sock))).setVprev v).compare w R.again).drew (2 + 2)).did
      [R.txn s.cfg sock v, R.txn s.cfg sock w]) := by
  refine exec_ready hs (R.isRequest sock) (R.noTests sock s ▸ nofun) ?_
  rw [R.effect, State.nextWord, State.nextWord, hv, hw, wordOfBytes_bytesOfWord, wordOfBytes_bytesOfWord]
  rfl

/-- The operation is its first read, then a turn at the next. -/
theorem exec_eq_turn (hv : s.nextBytes 2 = bytesOfWord v) :
    exec (R.op sock) s = rbatTurn (R.afterReads sock v [] s) := by
  have hw := (bytesOfWord_nextWord (s.drew 2)).symm
  rw [R.exec_op hs sock hv hw, R.turn (R.afterReads_at sock v [] s hs) (by simpa using hw), afterReads_sock]
  simp [afterReads, State.did_did, State.did_drew, State.drew_drew]

/-- The operation and `n` turns are its first read and `n + 1` turns after it. -/
theorem exec_turns {n : Nat} {u : State} (hv : s.nextBytes 2 = bytesOfWord v)
    (h : rbatTurns (n + 1) (R.afterReads sock v [] s) = .next u) :
    ∃ t, exec (R.op sock) s = .next t ∧ rbatTurns n t = .next u := by
  rw [R.exec_eq_turn hs sock hv]
  exact rbatTurns_succ.mp h

/-- Where no two neighbours are equal, every read is made. -/
theorem turns_afterReads (hne : (v :: ws).IsChain (· ≠ ·))
    (hb : (s.drew 2).nextBytes (2 * ws.length) = ws.flatMap bytesOfWord) :
    rbatTurns ws.length (R.afterReads sock v [] s) = .next (R.afterReads sock v ws s) := by
  rw [R.turns (R.afterReads_at sock v [] s hs) (by simpa using hne) (by simpa using hb), afterReads_sock]
  simp [afterReads, State.did_did, State.did_drew, State.drew_drew]

/-- The operation goes on while no two neighbours are equal. -/
theorem goesOn (hne : (v :: w :: ws).IsChain (· ≠ ·))
    (hb : s.nextBytes (2 * (ws.length + 2)) = (v :: w :: ws).flatMap bytesOfWord) :
    ∃ t u, exec (R.op sock) s = .next t ∧ rbatTurns ws.length t = .next u ∧ u.seq = R.again ∧ u.busy = true ∧
      u.res = s.res := by
  rw [Nat.mul_succ, Nat.add_comm, List.flatMap_cons] at hb
  obtain ⟨hv, hws⟩ := State.nextBytes_split hb (bytesOfWord_length v)
  obtain ⟨t, ht, hu⟩ := R.exec_turns hs sock hv (R.turns_afterReads hs sock hne hws)
  refine ⟨t, _, ht, hu, rfl, ?_, ?_⟩
  · simp [afterReads, State.busy, R.notIdle]
  · simp [afterReads]

/-- The operation ends at the first read equal to the one before it. -/
theorem ends (hne : (v :: ws).IsChain (· ≠ ·))
    (hb : s.nextBytes (2 * (ws.length + 1 + 1)) = (v :: ws ++ [ws.getLastD v]).flatMap bytesOfWord) :
    ∃ t u, exec (R.op sock) s = .next t ∧ rbatTurns ws.length t = .next u ∧ u.seq = .idle ∧ u.res = ws.getLastD v ∧
      u.trace = s.trace ++ (v :: ws ++ [ws.getLastD v]).map (R.txn s.cfg sock) := by
  rw [Nat.mul_succ, Nat.add_comm, List.cons_append, List.flatMap_cons] at hb
  obtain ⟨hv, hrest⟩ := State.nextBytes_split hb (bytesOfWord_length v)
  rw [Nat.mul_succ, List.flatMap_append] at hrest
  obtain ⟨hws, hlast⟩ := State.nextBytes_split hrest (by simp [Nat.mul_comm])
  rw [State.drew_drew, List.flatMap_singleton, ← R.afterReads_nextBytes sock v ws s] at hlast
  have hend := R.turn (R.afterReads_at sock v ws s hs) hlast
  rw [State.compare_same _ (R.afterReads_vprev sock v ws s).symm, afterReads_sock] at hend
  obtain ⟨t, ht, hu⟩ := R.exec_turns hs sock hv (rbatTurns_snoc (R.turns_afterReads hs sock hne hws) hend)
  refine ⟨t, _, ht, hu, rfl, rfl, ?_⟩
  simp [afterReads]

/-- The whole of the operation's own step, its two reads byte by byte. -/
theorem exec_bytes {h l h' l' : Byte} (hv : s.nextBytes 2 = [h, l]) (hw : (s.drew 2).nextBytes 2 = [h', l']) :
    exec (R.op sock) s = .next
      (let t := (s.drew 4).did [regRead s.cfg sock (R.off s.cfg) [h, l], regRead s.cfg sock (R.off s.cfg) [h', l']]
       if h = h' ∧ l = l' then
         { t with opnd := fieldsOf (R.op sock), vprev := h ++ l, res := h' ++ l', resWritten := true, seq := .idle }
       else { t with opnd := fieldsOf (R.op sock), vprev := h' ++ l', seq := R.again }) := by
  rw [← bytesOfWord_append] at hv hw
  rw [R.exec_op hs sock hv hw, txn, txn, bytesOfWord_append, bytesOfWord_append]
  by_cases he : h = h' ∧ l = l'
  · rw [if_pos he, State.compare_same _ (append_byte_eq_iff.mpr he).symm]
    simp [State.setRes, State.setSeq, State.setVprev, State.sample, State.did, State.drew]
  · rw [if_neg he, State.compare_other _ fun e => he (append_byte_eq_iff.mp e.symm)]
    simp [State.setSeq, State.setVprev, State.sample, State.did, State.drew]

end

end SizeRead

/-- Settles O55: each is its first two reads and their compare. -/
theorem sizeReadsCompareTwoReads : Obligations.SizeReadsCompareTwoReads := by
  intro sock s hs
  obtain ⟨h, l, hv⟩ := List.length_eq_two.mp (s.nextBytes_length 2)
  obtain ⟨h', l', hw⟩ := List.length_eq_two.mp ((s.drew 2).nextBytes_length 2)
  exact ⟨h, l, h', l', by rw [s.nextBytes_add 2 2, hv, hw]; rfl, SizeRead.txfree.exec_bytes hs sock hv hw,
    SizeRead.rxsize.exec_bytes hs sock hv hw⟩

/-- Neighbours by their indices. -/
theorem isChain_ne_of_getElem? {rs : List Word} (h : ∀ i, i + 1 < rs.length → rs[i]? ≠ rs[i + 1]?) :
    rs.IsChain (· ≠ ·) := by
  refine List.isChain_iff_getElem.mpr fun i hi => ?_
  simpa [hi, Nat.lt_of_succ_lt hi] using h i hi

/-- Settles O56: every read but the last differs from the one before it, and the last one ends the operation. -/
theorem sizeReadEndsAtTwoEqualReads : Obligations.SizeReadEndsAtTwoEqualReads := by
  intro sock rs v s hs hlast hne hb
  obtain _ | ⟨r, ws⟩ := rs
  · contradiction
  · rw [List.getLast?_cons, ← List.getLastD_eq_getLast?, Option.some.injEq] at hlast
    subst hlast
    have hchain := isChain_ne_of_getElem? hne
    exact ⟨SizeRead.txfree.ends hs sock hchain hb, SizeRead.rxsize.ends hs sock hchain hb⟩

/-- Settles O57: only reads that go on are made. -/
theorem sizeReadNeverEndsWhileValuesChange : Obligations.SizeReadNeverEndsWhileValuesChange := by
  intro sock rs s hs hlen hne hb
  obtain _ | ⟨r, _ | ⟨r', ws⟩⟩ := rs
  · contradiction
  · contradiction
  · have hchain := isChain_ne_of_getElem? hne
    exact ⟨SizeRead.txfree.goesOn hs sock hchain hb, SizeRead.rxsize.goesOn hs sock hchain hb⟩

end Sys2Proof.Machine

/-! # Refusals and loops (60_exceptions) -/

namespace Sys2Proof.Machine

/-! ## The next turn of a loop (R244, R246, R266) -/

/-- RBAT's turn inside a loop has a next state wherever a transaction may begin. -/
theorem inLoop_exists_next {s : State} (hl : s.InLoop) (hoe : s.csOe = true) (hc : s.csn = true) :
    ∃ t, rbatTurn s = .next t := by
  rcases id hl with h | h | h
  · exact ⟨_, (rbatTurn_inLoop_next hl).mpr ⟨hoe, hc, .inl ⟨h, rfl⟩⟩⟩
  · exact ⟨_, (rbatTurn_inLoop_next hl).mpr ⟨hoe, hc, .inr (.inl ⟨h, rfl⟩)⟩⟩
  · exact ⟨_, (rbatTurn_inLoop_next hl).mpr ⟨hoe, hc, .inr (.inr ⟨h, rfl⟩)⟩⟩

/-- A turn inside a loop stays in the loop or ends it. -/
theorem inLoop_seq {s t : State} (hl : s.InLoop) (h : rbatTurn s = .next t) : t.seq = s.seq ∨ t.seq = .idle := by
  obtain ⟨_, _, off, n, u, _, rfl, ⟨hq, rfl⟩ | ⟨_, rfl⟩⟩ := inLoop_next hl h
  · rw [State.did_seq, State.drew_seq, State.setSeq_seq, hq]
    exact (ite_eq_or_eq _ _ _).symm
  · by_cases hidle : (s.compare s.nextWord s.seq).seq = .idle
    · exact .inr hidle
    · exact .inl (State.compare_goesOn hidle).1

/-- Settles O17: the invariant holds both lines where the next read may begin, and a turn makes that read only. -/
theorem loopAlwaysHasANextTurn : Obligations.LoopAlwaysHasANextTurn := by
  intro s hs hl
  have hbusy : s.busy = true := by simp [State.busy, seq_ne_idle_of_inLoop hl]
  obtain ⟨t, ht⟩ := inLoop_exists_next hl (hs.busyInit hbusy) hs.csnHigh
  obtain ⟨off, htrace⟩ := inLoop_trace hl ht
  exact ⟨t, _, ht, inLoop_seq hl ht, htrace, rfl, inLoop_chipMem hl ht⟩

/-! ## The first reason (R264) -/

/-- Tests made one list after the other. -/
theorem firstRefusal_append (as bs : List (Bool × Refusal)) :
    firstRefusal (as ++ bs) = (firstRefusal as).or (firstRefusal bs) := by
  induction as with
  | nil => rfl
  | cons a as ih =>
    obtain ⟨bad, r⟩ := a
    cases bad
    · exact ih
    · rfl

/-- What `guarded` refuses. -/
theorem guarded_refused {cs : List (Bool × Refusal)} {s : State} {e : State → State} {r : Refusal} :
    guarded cs s e = .refused r ↔ firstRefusal cs = some r := by
  rw [guarded]
  cases firstRefusal cs <;> simp

/-- What `onBus` refuses. -/
theorem onBus_refused {cs : List (Bool × Refusal)} {s : State} {e : State → State} {r : Refusal} :
    onBus cs s e = .refused r ↔ firstRefusal ((!s.csOe, .notInit) :: cs) = some r := by
  rw [onBus]
  cases firstRefusal ((!s.csOe, .notInit) :: cs) <;> cases s.csn <;> simp

/-- All tests of an instruction, the one of `CS_OE` where it uses the bus included, in the order of R264. -/
def allTests (i : Instr) (s : State) : List (Bool × Refusal) := (i.usesBus && !s.csOe, .notInit) :: testsOf i s

/-- What an instruction that starts is refused with. -/
theorem exec_refused {i : Instr} {s : State} (hs : StartsIn i s) {r : Refusal} :
    exec i s = .refused r ↔ firstRefusal (allTests i s) = some r := by
  have hb : (i.isRequest && s.busy) = false := by
    cases hi : i.isRequest with
    | false => rfl
    | true => exact State.busy_eq_false.mpr (hs hi)
  rw [exec_eq, hb, allTests]
  cases i.usesBus with
  | false => simp [guarded_refused, firstRefusal]
  | true => simp [onBus_refused]

/-- An instruction that starts, passes all its tests and finds chip-select high leaves its outcome. -/
theorem exec_of_allTests {i : Instr} {s : State} (hs : StartsIn i s) (ht : ∀ c ∈ allTests i s, c.1 = false)
    (hc : s.csn = true) : exec i s = .next (outcomeOf i s) := by
  rw [allTests, List.forall_mem_cons] at ht
  refine exec_next.mpr (.inr ⟨hs, fun hu => ⟨?_, hc⟩, ht.2, rfl⟩)
  simpa [hu] using ht.1

/-- The reason of `expectedRefusal` after NotInit and those of the control byte. -/
def operandReason (i : Instr) (s : State) : Option Refusal :=
  if i.mustMove s = some 0 then some .lenZero
  else if 2048 < i.ringLen then some .lenRange
  else if 0xF800 < i.xlateBase then some .baseRange
  else if 65536 < i.runEnd s then some .addrRange
  else if s.din.length < i.takesDin then some .dinShort
  else none

/-- The expected reason is NotInit, else that of the control byte, else the operands'. -/
theorem expectedRefusal_eq (i : Instr) (s : State) :
    expectedRefusal i s = if i.usesBus = true ∧ s.csOe = false then some .notInit
      else (i.rawCtl.bind fun p => ctlReason p.1 p.2).or (operandReason i s) := by
  rw [expectedRefusal]
  cases i.rawCtl.bind fun p => ctlReason p.1 p.2 <;> rfl

/-- A length is zero where its number is (R153, R211). -/
theorem lenIsZero_eq (len : Word) : lenIsZero len = decide (len.toNat = 0) := by
  rw [lenIsZero, beq_eq_decide, decide_eq_decide]
  exact BitVec.toNat_inj.symm

/-- A base is too high above 0xF800 (R197). -/
theorem baseTooHigh_eq (base : Word) : baseTooHigh base = decide (0xF800 < base.toNat) := by
  rw [baseTooHigh, decide_eq_decide]
  omega

/-- The tests an instruction makes find the reason of its control byte, else the operands'. -/
theorem firstRefusal_testsOf (i : Instr) (s : State) :
    firstRefusal (testsOf i s) = (i.rawCtl.bind fun p => ctlReason p.1 p.2).or (operandReason i s) := by
  cases i with simp only [testsOf, operandReason, Instr.rawCtl, Instr.mustMove, Instr.ringLen, Instr.xlateBase, Instr.runEnd,
    Instr.takesDin, Option.bind_none, Option.bind_some, Option.none_or]
  | init | execCmd | txfree | rxsize => rfl
  | wr1 | rd1 => simp [firstRefusal_ctlChecks]
  | rdn => simp [firstRefusal_append, firstRefusal_ctlChecks, firstRefusal, runChecks, lenIsZero_eq, runTooHigh]
  | wrn =>
    simp [firstRefusal_append (ctlChecks _ _), firstRefusal_ctlChecks, firstRefusal, runChecks, dinChecks, lenIsZero_eq,
      runTooHigh]
    rfl
  | snwr1 | snrd1 | snwr2 | snrd2 => simp [firstRefusal, regChecks, runTooHigh]
  | xlate => simp [firstRefusal, baseTooHigh_eq, lenOverBuffer]
  | rddata | recv => simp [firstRefusal, ringChecks, lenIsZero_eq, lenOverBuffer]
  | send | sendofs =>
    simp [firstRefusal, ringChecks, dinChecks, lenIsZero_eq, lenOverBuffer]
    rfl
  | fWrGen | fWrSreg | fWrTxb | fRdGen | fRdSreg | fRdRxb => simp [firstRefusal, runTooHigh]

/-- The expected reason is the first among all tests of the instruction. -/
theorem expectedRefusal_eq_firstRefusal (i : Instr) (s : State) :
    expectedRefusal i s = firstRefusal (allTests i s) := by
  rw [expectedRefusal_eq, ← firstRefusal_testsOf]
  simp [allTests, firstRefusal]

/-- Settles O22: the tests of `exec` find the expected reason, and with none of them failed it leaves its outcome. -/
theorem firstReasonIsReported : Obligations.FirstReasonIsReported := by
  intro i s hs
  rw [expectedRefusal_eq_firstRefusal]
  exact ⟨fun r => exec_refused hs, fun hn hc => ⟨_, exec_of_allTests hs (firstRefusal_none.mp hn) hc⟩⟩

end Sys2Proof.Machine

/-! ## The reset input: O13 -/

namespace Sys2Proof.Machine

/-- With BUSY = 0 the reset input acts (R290). -/
theorem State.hostAct_reset_of_not_busy {s : State} (hb : s.busy = false) : s.hostAct .reset = .next s.resetInput := by
  simp [State.hostAct, hb]

/-- With BUSY = 1 the reset input is outside the model (R291, log 10). -/
theorem State.hostAct_reset_of_busy {s : State} (hb : s.busy = true) : s.hostAct .reset = .refused .resetBusy := by
  simp [State.hostAct, hb]

/-- Settles O13: one rule for each value of BUSY; `resetInput` is the reset state with the configuration and the environment kept. -/
theorem resetInputRestoresResetState : Obligations.ResetInputRestoresResetState :=
  fun _ => ⟨State.hostAct_reset_of_not_busy, State.hostAct_reset_of_busy⟩

end Sys2Proof.Machine
